-- ==== Sys2Proof/Word.lean ====
section
/-! DEFINITION. The three word sizes of MCB: a byte, a register or word-memory element, and the
64-bit width of the key-schedule arithmetic (spec 00_scope.md R11, R12). -/

namespace Sys2Proof

/-- A byte, read unsigned: 0 to 255 (R11). -/
abbrev Byte := BitVec 8

/-- A 32-bit word: every register and every element of IV, KEYN and KEYX (R11, R20, R59). -/
abbrev Word := BitVec 32

/-- The 64-bit width of `iSalt`, `initial`, `ival` and `PR_N` (R14, R40, R57). -/
abbrev DWord := BitVec 64

end Sys2Proof
end

