-- ==== Sys2Proof/Config.lean ====
section
/-! DEFINITION. What an implementation of MCB fixes: the constants, the parameters of
spec 00_scope.md R9, and the two free values the spec leaves open (93_implementation_defined.md
U1 and U2). -/

namespace Sys2Proof

/-- The parameters of R9 that are not fixed: "A model takes each as an argument (a configuration
field)". A machine is one value of this record. `step` takes a state alone, so the state carries the record
and no step writes it (log entry 1). `P_BITS` and `P_DBUF` are computed from `bufferSize`
(Machine/Operands.lean). -/
structure Params where
  /-- `S0`, the first signature byte on the wire -/
  sig0 : Byte
  /-- `S1` -/
  sig1 : Byte
  /-- `S2` -/
  sig2 : Byte
  /-- `P_ENC_BASE64` -/
  encBase64 : Byte
  /-- `P_BUFFER_SIZE`: the largest plaintext chunk in bytes -/
  bufferSize : Nat
  /-- `P_DEFAULT_MULT` -/
  defaultMult : Nat
  /-- `P_MIN_MULT` -/
  minMult : Nat
  /-- `P_SALT_MAX` -/
  saltMax : Nat
  /-- `P_PASS_MAX` -/
  passMax : Nat
  /-- `P_VEC_MAX` -/
  vecMax : Nat
  /-- `P_KEY_MAX` -/
  keyMax : Nat
deriving DecidableEq, Repr

/-- The default column of R9. The signature `4D 43 46` is unverified (G5, log entry 1). -/
def Config.defaults : Params :=
  { sig0 := 0x4D#8, sig1 := 0x43#8, sig2 := 0x46#8
    encBase64 := 0x20#8
    bufferSize := 4096
    defaultMult := 32
    minMult := 1
    saltMax := 63
    passMax := 63
    vecMax := 65536
    keyMax := 256 }

/-- `P_CRC_POLY`, fixed (R9). -/
def Config.crcPoly : Word := 0xEDB88320#32

/-- `P_CRC_PRESET`, fixed (R9, G1). -/
def Config.crcPreset : Word := 0xFFFFFFFF#32

/-- `P_CRC_XOROUT`, fixed (R9, G2). -/
def Config.crcXorOut : Word := 0xFFFFFFFF#32

/-- `P_ENC_BINARY`, fixed (R9). -/
def Config.encBinary : Byte := 0x10#8

/-- `P_HDR_LEN`, fixed (R9, R180). -/
def Config.hdrLen : Nat := 20

/-- `P_BLOCK_ID`, fixed (R9, R23). -/
def Config.blockId : Word := 0x4D434231#32

/-- FREE VALUE (U1, log entry 5): what an element of a memory that nothing has written since
reset reads as. `w` is the element's width, `draw` the number of the step that reads it (two reads need not agree),
`sel` the memory's `BUF_SEL` number (R30) and `index` the element. -/
opaque Config.unwritten (w : Nat) (draw : Nat) (sel : BitVec 3) (index : Nat) : BitVec w

/-- FREE VALUE (U2, log entry 6): what `RD` of any offset other than `STATUS` returns while
`BUSY = 1`. `draw` is the number of the step, `index` the word index `off[7:2]`. -/
opaque Config.busyRead (draw : Nat) (index : BitVec 6) : Word

end Sys2Proof
end

