-- ==== Sys2Proof/Syntax.lean ====
section
/-! DEFINITION. What can be said to MCB: the twelve commands (spec 30_encoding.md R93), the
registers (10_state.md R21) and memories (R59) by name, the two host transactions (20_memory.md
R71), the turns of a run (R263) and the host-script statements (R99, R100). -/

namespace Sys2Proof

/-- The twelve commands of R93. A command word carries no operands and no immediates (R92). -/
inductive Instr where
  | nop
  | cleanup
  | crcRun
  | crcCont
  | modpow
  | isprime
  | ksDerive
  | xform
  | hdrPack
  | hdrUnpack
  | encChunk
  | decChunk
deriving DecidableEq, Repr

/-- The 36 registers, in the order of their offsets (R21). -/
inductive Reg where
  | id | cmd | status | errcode | ctrl | ien | sig | bufSel | bufAddr | bufData
  | inLen | outLen | saltLen | passLen | mult | vecSize | ivalLo | ivalHi | keyLen | chunkId
  | rand | crcInit | crcRaw | crcOut | hType | hOsize | hEsize | hCrc | hShift
  | mpBase | mpExp | mpMod | mpRes | prNLo | prNHi | prRes
deriving DecidableEq, Repr

/-- The seven memories (R59). -/
inductive Buf where
  | ibuf | obuf | salt | pass | iv | keyn | keyx
deriving DecidableEq, Repr

/-- A host transaction. The port carries the word index `off[7:2]` only, so a misaligned or
narrower access cannot be expressed (R71). -/
inductive Transaction where
  | rd (index : BitVec 6)
  | wr (index : BitVec 6) (v : Word)
deriving DecidableEq, Repr

/-- Who moves next. A run of MCB is a sequence of host transactions and commits (R263) and
of changes of the `rst` input (R250). A `sequencer` turn is a point of the run at which a pending commit falls
(R79: any number of transactions may fall before it). -/
inductive Turn where
  | host (t : Transaction)
  | sequencer
  | assertReset
  | releaseReset
deriving DecidableEq, Repr

/-- Host-script statements (R99, R100). `rdAt` and `wrAt` name a byte offset instead of a register (the vectors of
95_test_vectors.md V10 write reserved offsets so) and `runWord` a command word instead of a mnemonic (program P4).
`early` is how many of the `RD STATUS` of a WAIT find `BUSY = 1`: R79 leaves the number open. `commitHere` is the model's own (log entry 15): no
transaction, but the point at which a pending commit falls, where that is before the WAIT. -/
inductive Stmt where
  | wr (r : Reg) (v : Word)
  | rd (r : Reg)
  | wrAt (off : Nat) (v : Word)
  | rdAt (off : Nat)
  | cmd (i : Instr)
  | wait (early : Nat)
  | commitHere
  | run (i : Instr) (early : Nat)
  | runWord (w : Word) (early : Nat)
  | ldb (m : Buf) (addr : Word) (bytes : List Byte)
  | ldw (m : Buf) (addr : Word) (words : List Word)
  | rdb (m : Buf) (addr : Word) (n : Nat)
  | rdw (m : Buf) (addr : Word) (n : Nat)
  | ack
deriving DecidableEq, Repr

end Sys2Proof
end

