-- ==== Sys2Proof/WellFormed.lean ====
section
/-! DEFINITION. Which terms of the syntax mean something: instructions, host-script statements,
and the constraints R9 lays on the parameters. -/

namespace Sys2Proof

/-- A command carries no operand and no immediate (R92), so each of the twelve is well formed. -/
def Instr.wellFormed (_ : Instr) : Bool := true

/-- The memories with byte elements (R59). -/
def Buf.isByte : Buf → Bool
  | .ibuf | .obuf | .salt | .pass => true
  | .iv | .keyn | .keyx => false

/-- An offset a transaction can name: a multiple of 4 in `[0x00, 0xFC]` (R71). -/
def offsetWf (off : Nat) : Bool := off % 4 == 0 && decide (off ≤ 0xFC)

/-- R100: `LDB` and `RDB` are for byte memories, `LDW` and `RDW` for word memories; R71: the offset a
raw access names. -/
def Stmt.wellFormed : Stmt → Bool
  | .wr _ _ | .rd _ | .wait _ | .commitHere | .runWord _ _ | .ack => true
  | .wrAt off _ | .rdAt off => offsetWf off
  | .cmd i | .run i _ => i.wellFormed
  | .ldb m _ _ | .rdb m _ _ => m.isByte
  | .ldw m _ _ | .rdw m _ _ => !m.isByte

/-- The constraint column of R9. The last three conditions are the model's reading (log entry 2): a
length that a 32-bit register counts fits 32 bits. -/
def Params.wf (p : Params) : Bool :=
  p.encBase64 != Config.encBinary
    && decide (1 ≤ p.bufferSize)
    && decide (1 ≤ p.minMult)
    && decide (p.minMult ≤ p.defaultMult)
    && decide (1 ≤ p.saltMax)
    && decide (1 ≤ p.passMax) && decide (p.passMax ≤ 63)
    && decide (1 ≤ p.vecMax)
    && decide (1 ≤ p.keyMax)
    && decide (p.bufferSize + Config.hdrLen < 2 ^ 32)
    && decide (p.vecMax < 2 ^ 32)

end Sys2Proof
end

