-- ==== Sys2Proof/Decode.lean ====
section
/-! DEFINITION. Command words: the decoder (spec 30_encoding.md R90 to R95), the encoder, and the
host's view of the decoder. -/

namespace Sys2Proof

/-- Why a word is no command (R94). -/
inductive DecodeError where
  /-- bits 31:8 are not all zero (R91) -/
  | zeroFieldNotZero
  /-- `OPC` is none of the twelve values of R93 -/
  | unassignedOpcode
deriving DecidableEq, Repr

/-- The opcode map, row by row (R93). -/
def opcodeMap : List (Byte × Instr) :=
  [ (0x00#8, .nop), (0x01#8, .cleanup),
    (0x10#8, .crcRun), (0x11#8, .crcCont),
    (0x20#8, .modpow), (0x21#8, .isprime),
    (0x30#8, .ksDerive),
    (0x40#8, .xform),
    (0x50#8, .hdrPack), (0x51#8, .hdrUnpack),
    (0x60#8, .encChunk), (0x61#8, .decChunk) ]

/-- Bits 31:8, `ZERO` (R91). -/
def zeroField (w : Word) : BitVec 24 := w.extractLsb' 8 24

/-- Bits 7:0, `OPC` (R91). -/
def opcField (w : Word) : Byte := w.extractLsb' 0 8

/-- The row of an opcode in a map. -/
def lookupOpcode (opc : Byte) : List (Byte × Instr) → Option Instr
  | [] => none
  | (o, i) :: rows => if o = opc then some i else lookupOpcode opc rows

/-- A decoder looks at the one word and nothing else (R90); a word is a legal command exactly when
`ZERO = 0` and `OPC` is in the map (R91). -/
def decode (w : Word) : Except DecodeError Instr :=
  if zeroField w = 0#24 then
    match lookupOpcode (opcField w) opcodeMap with
    | some i => .ok i
    | none => .error .unassignedOpcode
  else .error .zeroFieldNotZero

/-- The command word of a command: the second column of R93. -/
def encode : Instr → Word
  | .nop => 0x00000000#32
  | .cleanup => 0x00000001#32
  | .crcRun => 0x00000010#32
  | .crcCont => 0x00000011#32
  | .modpow => 0x00000020#32
  | .isprime => 0x00000021#32
  | .ksDerive => 0x00000030#32
  | .xform => 0x00000040#32
  | .hdrPack => 0x00000050#32
  | .hdrUnpack => 0x00000051#32
  | .encChunk => 0x00000060#32
  | .decChunk => 0x00000061#32

/-- The host's question: the instruction the decoder reads from the bits `w` of a row of `nbits`
bits. Every command is one 32-bit word (R90), taken whole from the data of the transaction (R82), so there is no byte
order to apply. -/
def decodeTableWord (nbits w : Nat) : Option Instr :=
  if w % 2 ^ nbits < 2 ^ 32 then
    match decode (BitVec.ofNat 32 (w % 2 ^ nbits)) with
    | .ok i => some i
    | .error _ => none
  else none

end Sys2Proof
end

