-- ==== Sys2Proof/Machine/State.lean ====
section
/-! DEFINITION. The state of MCB as plain data (spec 10_state.md), its reset value, and the reasons
a step could stop. -/

namespace Sys2Proof.Machine

/-- One of the seven memories (R59), element-indexed, in canonical form: `cells` lists index and
element, indices strictly rising, and no listed element equals what an unlisted one reads as (Ops.lean
`Memory.unlisted`). `zeroed = false`: nothing was written since reset but what `cells` lists, and an unlisted
element is unspecified (R68). `zeroed = true`: CLEANUP overwrote every element with zero (R211) and `cells` lists what
is non-zero since. For a byte memory an entry is a `Host.Cell`. -/
structure Memory (w : Nat) where
  zeroed : Bool
  cells : List (Nat × BitVec w)
deriving DecidableEq, Repr

/-- A memory nothing has written since reset (R68). -/
def Memory.unknown (w : Nat) : Memory w := { zeroed := false, cells := [] }

/-- Why a step could stop with a fault. There is no such reason: a command that cannot complete
commits with an error code (R222), every transaction completes (R71), and "Nothing in MCB traps"
(60_exceptions.md, opening). Safe (log entry 13). -/
inductive Fault where
deriving DecidableEq, Repr

/-- Why a step could be refused. -/
inductive Refusal where
  /-- Raised by an arm of `exec` whose instruction has no meaning yet; no arm is left so. Safe: nothing can be
  concluded of a refused step. -/
  | notModelled (mnemonic : String)
deriving DecidableEq, Repr

/-- Everything the spec gives the machine. Reserved bits read 0 and ignore writes (R72), so a register is stored by its
implemented bits and its 32-bit reading is assembled in Port.lean. `ID`, `SIG`, `CRC_OUT`, `BUF_DATA`
and the `STATUS` bits `KS_VALID` and `KEY_VALID` are no storage (R23, R29, R46, R32, R25). The last four fields are the
model's own, not the spec's. -/
structure State where
  /-- the parameters of R9: configuration, written by no step (log entry 1) -/
  par : Params
  /-- `CMD` (R24): the most recently accepted word, and while `busy` the command in flight (R67) -/
  cmd : Word
  /-- `STATUS.BUSY` (R25) -/
  busy : Bool
  /-- `STATUS.DONE` (R25) -/
  done : Bool
  /-- `STATUS.ERR` (R25) -/
  err : Bool
  /-- `STATUS.WRBUSY` (R25) -/
  wrbusy : Bool
  /-- `ERRCODE[2:0]` (R26) -/
  errcode : BitVec 3
  /-- `CTRL.SIMPLE` (R27) -/
  simple : Bool
  /-- `IEN.DONE_IE` (R28) -/
  doneIe : Bool
  /-- `IEN.ERR_IE` (R28) -/
  errIe : Bool
  /-- `BUF_SEL[2:0]` (R30) -/
  bufSel : BitVec 3
  /-- `BUF_ADDR` (R31) -/
  bufAddr : Word
  /-- `IN_LEN` (R33) -/
  inLen : Word
  /-- `OUT_LEN` (R34) -/
  outLen : Word
  /-- `SALT_LEN` (R35) -/
  saltLen : Word
  /-- `PASS_LEN` (R36) -/
  passLen : Word
  /-- `MULT` (R37) -/
  mult : Word
  /-- `VEC_SIZE` (R38) -/
  vecSize : Word
  /-- `IVAL_LO` (R39) -/
  ivalLo : Word
  /-- `IVAL_HI` (R40) -/
  ivalHi : Word
  /-- `KEY_LEN` (R41) -/
  keyLen : Word
  /-- `CHUNK_ID` (R42) -/
  chunkId : Word
  /-- `RAND` (R43) -/
  rand : Word
  /-- `CRC_INIT` (R44) -/
  crcInit : Word
  /-- `CRC_RAW` (R45) -/
  crcRaw : Word
  /-- `H_TYPE[7:0]` (R47) -/
  hType : Byte
  /-- `H_OSIZE` (R48) -/
  hOsize : Word
  /-- `H_ESIZE` (R49) -/
  hEsize : Word
  /-- `H_CRC` (R50) -/
  hCrc : Word
  /-- `H_SHIFT` (R51) -/
  hShift : Word
  /-- `MP_BASE` (R52) -/
  mpBase : Word
  /-- `MP_EXP` (R53) -/
  mpExp : Word
  /-- `MP_MOD` (R54) -/
  mpMod : Word
  /-- `MP_RES` (R55) -/
  mpRes : Word
  /-- `PR_N_LO` (R56) -/
  prNLo : Word
  /-- `PR_N_HI` (R57) -/
  prNHi : Word
  /-- `PR_RES[0]` (R58) -/
  prRes : Bool
  /-- IBUF (R60) -/
  ibuf : Memory 8
  /-- OBUF (R61) -/
  obuf : Memory 8
  /-- SALT (R62) -/
  salt : Memory 8
  /-- PASS (R63) -/
  pass : Memory 8
  /-- IV (R64) -/
  iv : Memory 32
  /-- KEYN (R65) -/
  keyn : Memory 32
  /-- KEYX (R66) -/
  keyx : Memory 32
  /-- the level of the reset input `rst` (R250) -/
  rst : Bool
  /-- the model's own: what the port answered in the last step, `none` unless that step was an `RD` -/
  rdata : Option Word
  /-- the model's own: the rest of the run, host transactions and commit points in order -/
  turns : List Turn
  /-- the model's own: counts turns, so that each step meets fresh free values -/
  draw : Nat
deriving DecidableEq, Repr

/-- The state when `rst` has been released, for a machine with parameters `p`: the reset column of
R21, no command in flight, nothing known of any memory (R68, R250). -/
def State.resetWith (p : Params) : State :=
  { par := p
    cmd := 0#32
    busy := false, done := false, err := false, wrbusy := false
    errcode := 0#3
    simple := false
    doneIe := false, errIe := false
    bufSel := 0#3
    bufAddr := 0#32
    inLen := 0#32, outLen := 0#32
    saltLen := 0#32, passLen := 0#32
    mult := 0xFFFFFFFF#32
    vecSize := 0#32, ivalLo := 0#32, ivalHi := 0#32
    keyLen := 0#32, chunkId := 0#32, rand := 0#32
    crcInit := 0xFFFFFFFF#32, crcRaw := 0xFFFFFFFF#32
    hType := 0x10#8
    hOsize := 0#32, hEsize := 0#32, hCrc := 0#32, hShift := 0#32
    mpBase := 0#32, mpExp := 0#32, mpMod := 0#32, mpRes := 0#32
    prNLo := 0#32, prNHi := 0#32
    prRes := false
    ibuf := .unknown 8, obuf := .unknown 8, salt := .unknown 8, pass := .unknown 8
    iv := .unknown 32, keyn := .unknown 32, keyx := .unknown 32
    rst := false
    rdata := none
    turns := []
    draw := 0 }

/-- The machine right after reset, with the default parameters of R9 (log entry 1) and an empty run. -/
def State.reset : State := State.resetWith Config.defaults

end Sys2Proof.Machine
end

