-- ==== Sys2Proof/Machine/Ops.lean ====
section
/-! DEFINITION. The operations the commands share: reading and writing the memories, accept (spec
30_encoding.md R96), the two ends of a commit (R97, and the failure of 60_exceptions.md R222, which is all the exception
entry MCB has: R228), reset (R250), and the arithmetic primitives of 00_scope.md R12 to R15. -/

namespace Sys2Proof.Machine

/-! ### Memories (20_memory.md R81: element by element, at the width of the element) -/

/-- The `BUF_SEL` number of a memory (R30). -/
def bufNumber : Buf → BitVec 3
  | .ibuf => 0#3
  | .obuf => 1#3
  | .salt => 2#3
  | .pass => 3#3
  | .iv => 4#3
  | .keyn => 5#3
  | .keyx => 6#3

/-- The element listed at an index. -/
def lookupCell {w : Nat} (i : Nat) : List (Nat × BitVec w) → Option (BitVec w)
  | [] => none
  | (j, v) :: rest => if j = i then some v else lookupCell i rest

/-- What an element that is not listed reads as: zero once CLEANUP has overwritten the memory (R211),
else a free value (U1, log entry 5). -/
def Memory.unlisted {w : Nat} (m : Memory w) (b : Buf) (draw i : Nat) : BitVec w :=
  if m.zeroed then 0#w else Config.unwritten w draw (bufNumber b) i

/-- `MEM[i]` (R16). -/
def Memory.read {w : Nat} (m : Memory w) (b : Buf) (draw i : Nat) : BitVec w :=
  (lookupCell i m.cells).getD (m.unlisted b draw i)

/-- `MemRead(MEM, i, n)` (R16). -/
def Memory.readRange {w : Nat} (m : Memory w) (b : Buf) (draw i n : Nat) : List (BitVec w) :=
  (List.range n).map fun k => m.read b draw (i + k)

/-- A cell put into a list in index order, in the place of any cell of the same index. -/
def insertCell {w : Nat} (i : Nat) (v : BitVec w) : List (Nat × BitVec w) → List (Nat × BitVec w)
  | [] => [(i, v)]
  | (j, u) :: rest =>
    if j < i then (j, u) :: insertCell i v rest
    else if j = i then (i, v) :: rest
    else (i, v) :: (j, u) :: rest

/-- Whether a value must be listed: in a zeroed memory a zero must not. -/
def Memory.lists {w : Nat} (m : Memory w) (v : BitVec w) : Bool := !(m.zeroed && v == 0#w)

/-- `MEM[i] <- v` (R16). -/
def Memory.write {w : Nat} (m : Memory w) (i : Nat) (v : BitVec w) : Memory w :=
  { m with
    cells :=
      if m.lists v then insertCell i v m.cells
      else m.cells.filter fun c => c.1 != i }

/-- The elements of a sequence with their indices, the first at `i`. -/
def cellsFrom {w : Nat} (i : Nat) : List (BitVec w) → List (Nat × BitVec w)
  | [] => []
  | v :: vs => (i, v) :: cellsFrom (i + 1) vs

/-- `MemWrite(MEM, i, n, seq)` with `n` the length of `seq` (R16). -/
def Memory.writeRange {w : Nat} (m : Memory w) (i : Nat) (vs : List (BitVec w)) : Memory w :=
  { m with
    cells :=
      m.cells.filter (fun c => decide (c.1 < i))
        ++ ((cellsFrom i vs).filter (fun c => m.lists c.2)
          ++ m.cells.filter (fun c => decide (i + vs.length ≤ c.1))) }

/-- Every element overwritten with zero (R211). -/
def Memory.zeros (w : Nat) : Memory w := { zeroed := true, cells := [] }

/-- Indices strictly rising, from `i` on. -/
def risingFrom {w : Nat} (i : Nat) : List (Nat × BitVec w) → Bool
  | [] => true
  | (j, _) :: rest => decide (i ≤ j) && risingFrom (j + 1) rest

/-- The canonical form of a memory of `cap` elements. -/
def Memory.wf {w : Nat} (m : Memory w) (cap : Nat) : Bool :=
  risingFrom 0 m.cells
    && m.cells.all fun c => decide (c.1 < cap) && m.lists c.2

/-! ### Arithmetic primitives -/

/-- `shl32(v, s)` (R13). -/
def shl32 (v : Word) (s : Nat) : Word := v <<< s

/-- `shl64(v, s)` (R13). -/
def shl64 (v : DWord) (s : Nat) : DWord := v <<< s

/-- `ipow64(b, e)` (R14). -/
def ipow64 (b : Byte) : Nat → DWord
  | 0 => 1#64
  | e + 1 => ipow64 b e * b.setWidth 64

/-- `be32(v)`: most significant byte first (R15). -/
def be32 (v : Word) : List Byte :=
  [v.extractLsb' 24 8, v.extractLsb' 16 8, v.extractLsb' 8 8, v.extractLsb' 0 8]

/-- `unbe32(b0, b1, b2, b3)` (R15). -/
def unbe32 (b0 b1 b2 b3 : Byte) : Word := b0 ++ b1 ++ b2 ++ b3

/-- The least `m` with `2^m >= n`, looked for from `m` on. -/
def ceilLog2From (n m : Nat) : Nat → Nat
  | 0 => m
  | fuel + 1 => if n ≤ 2 ^ m then m else ceilLog2From n (m + 1) fuel

/-- The least natural number `m` with `2^m >= n` (R10): at most `n`, so `n` tries suffice. -/
def ceilLog2 (n : Nat) : Nat := ceilLog2From n 0 n

/-! ### Errors, accept, commit, reset -/

/-- The seven error codes by name (R220). -/
inductive ErrCode where
  | uninit | io | format | integrity | resource | param | illcmd
deriving DecidableEq, Repr

/-- The value `ERRCODE` takes (R220). -/
def errNumber : ErrCode → BitVec 3
  | .uninit => 1#3
  | .io => 2#3
  | .format => 3#3
  | .integrity => 4#3
  | .resource => 5#3
  | .param => 6#3
  | .illcmd => 7#3

/-- Accept of the word `w` (R96). -/
def State.accept (s : State) (w : Word) : State :=
  { s with cmd := w, busy := true, done := false, err := false, errcode := 0#3 }

/-- The end of a commit that succeeds, the command's own writes being made (R97, log entry 10). -/
def State.succeed (s : State) : State :=
  { s with busy := false, done := true, err := false, errcode := 0#3 }

/-- The commit of a command that fails: exactly these writes (R222). -/
def State.fail (s : State) (e : ErrCode) : State :=
  { s with busy := false, done := true, err := true, errcode := errNumber e }

/-- `OUT_LEN <- 0`, which the failure of XFORM, HDR_PACK, ENC_CHUNK and DEC_CHUNK adds (R222). -/
def State.dropOutput (s : State) : State := { s with outLen := 0#32 }

/-- The commit of a command whose evaluation at `s` gave `r`: on success the state with the command's
writes made, on failure a code (R97, R222). -/
def commit (s : State) (r : Except ErrCode State) : Host.Outcome State Fault Refusal :=
  match r with
  | .ok t => .next t.succeed
  | .error e => .next (s.fail e)

/-- The commit of XFORM, HDR_PACK, ENC_CHUNK and DEC_CHUNK, whose failure also drops the output (R222). -/
def commitOutput (s : State) (r : Except ErrCode State) : Host.Outcome State Fault Refusal :=
  match r with
  | .ok t => .next t.succeed
  | .error e => .next (s.fail e).dropOutput

/-- The registers and memories as `rst` leaves them (R250). The level of `rst`, the parameters, the run and the
count of turns are not MCB's registers. -/
def State.resetRegisters (s : State) : State :=
  { State.resetWith s.par with rst := s.rst, turns := s.turns, draw := s.draw }

/-- The next turn is taken: it leaves the run, and free values are drawn anew. -/
def State.advance (s : State) : State :=
  { s with turns := s.turns.tail, draw := s.draw + 1, rdata := none }

end Sys2Proof.Machine
end

