-- ==== Sys2Proof/Machine/Control.lean ====
section
/-! DEFINITION. The control commands (spec 45_control.md). -/

namespace Sys2Proof.Machine

/-- NOP (R210). -/
def execNop (s : State) : Host.Outcome State Fault Refusal := commit s (.ok s)

/-- The writes of CLEANUP (R211). -/
def State.cleanup (s : State) : State :=
  { s with
    vecSize := 0#32, ivalLo := 0#32, ivalHi := 0#32, keyLen := 0#32
    iv := .zeros 32, keyn := .zeros 32, keyx := .zeros 32 }

/-- CLEANUP (R211). -/
def execCleanup (s : State) : Host.Outcome State Fault Refusal := commit s (.ok s.cleanup)

end Sys2Proof.Machine
end

