-- ==== Sys2Proof/Machine/Operands.lean ====
section
/-! DEFINITION. How the commands read their operands (spec 30_encoding.md R98): the derived parameters of
00_scope.md R9, the memory ranges, the 64-bit register pairs, the signed reading of `MULT` and the selected
key entry. -/

namespace Sys2Proof

/-- `P_BITS` (R10). -/
def Params.bits (p : Params) : Nat := Machine.ceilLog2 p.bufferSize

/-- `P_DBUF = P_BUFFER_SIZE + P_HDR_LEN` (R9). -/
def Params.dbuf (p : Params) : Nat := p.bufferSize + Config.hdrLen

/-- The capacity of a memory in elements (R59). -/
def Params.capacity (p : Params) : Buf → Nat
  | .ibuf | .obuf => p.dbuf
  | .salt => p.saltMax
  | .pass => p.passMax
  | .iv => p.vecMax
  | .keyn | .keyx => p.keyMax

namespace Machine

/-- `MemRead(IBUF, i, n)`. -/
def State.ibufBytes (s : State) (i n : Nat) : List Byte := s.ibuf.readRange .ibuf s.draw i n

/-- SALT`[0, SALT_LEN)` (R35, R62). -/
def State.saltBytes (s : State) : List Byte := s.salt.readRange .salt s.draw 0 s.saltLen.toNat

/-- PASS`[0, PASS_LEN)` (R36, R63). -/
def State.passBytes (s : State) : List Byte := s.pass.readRange .pass s.draw 0 s.passLen.toNat

/-- `IV[k]` (R64). -/
def State.ivWord (s : State) (k : Nat) : Word := s.iv.read .iv s.draw k

/-- `IVAL = {IVAL_HI, IVAL_LO}` (R40). -/
def State.ival (s : State) : DWord := s.ivalHi ++ s.ivalLo

/-- `PR_N = {PR_N_HI, PR_N_LO}` (R57). -/
def State.prN (s : State) : DWord := s.prNHi ++ s.prNLo

/-- The multiplier: `P_DEFAULT_MULT` when `MULT` is negative, that is when its bit 31 is 1, else `MULT`
(R37, R141 (4)). -/
def State.multiplier (s : State) : Nat := if s.mult.msb then s.par.defaultMult else s.mult.toNat

/-- `idx = CHUNK_ID mod KEY_LEN` (R165); asked for only where `KEY_LEN != 0`. -/
def State.keyIndex (s : State) : Nat := s.chunkId.toNat % s.keyLen.toNat

/-- `KEYN[idx]` (R165). -/
def State.keyModulus (s : State) : Word := s.keyn.read .keyn s.draw s.keyIndex

/-- `KEYX[idx]` (R165). -/
def State.keyExponent (s : State) : Word := s.keyx.read .keyx s.draw s.keyIndex

/-- `valid_type(b)` (R183). -/
def validType (p : Params) (b : Byte) : Bool := b == Config.encBinary || b == p.encBase64

end Machine
end Sys2Proof
end

