-- ==== Sys2Proof/Machine/NumberTheory.lean ====
section
/-! DEFINITION. The number-theory unit (spec 41_modexp.md). The two functions are not defined outside their
domains "and a model must not extend them" (93_implementation_defined.md U10), so each answers `none` there. -/

namespace Sys2Proof.Machine

/-- One multiplication of R125: the exact product, reduced only when it exceeds `mod`. -/
def modpowStep (base mod acc : Nat) : Nat :=
  if mod < acc * base then acc * base % mod else acc * base

/-- The accumulator of R125 after `k` multiplications. -/
def modpowAcc (base mod : Nat) : Nat → Nat
  | 0 => 1
  | k + 1 => modpowStep base mod (modpowAcc base mod k)

/-- `modpow_f(base, exp, mod)` (R125), for `mod >= 1` only. The accumulator is at most `mod` (R127), so
it fits a word. -/
def modpowF (base exp mod : Word) : Option Word :=
  if mod = 0#32 then none
  else some (BitVec.ofNat 32 (modpowAcc base.toNat mod.toNat exp.toNat))

/-- The writes of MODPOW (R126). -/
def evalModpow (s : State) : Except ErrCode State :=
  match modpowF s.mpBase s.mpExp s.mpMod with
  | none => .error .param
  | some r => .ok { s with mpRes := r }

/-- MODPOW (R126). -/
def execModpow (s : State) : Host.Outcome State Fault Refusal := commit s (evalModpow s)

/-- Whether no `d`, `d + 2`, `d + 4`, … with square at most `n` divides `n`, in at most `fuel` trials (R130). -/
def noOddDivisor (n : Nat) : Nat → Nat → Bool
  | 0, _ => true
  | fuel + 1, d =>
    if n < d * d then true
    else if n % d = 0 then false
    else noOddDivisor n fuel (d + 2)

/-- `is_prime_f(n)` (R130), for odd `n >= 3` only. The comparison `d * d <= n` is on unbounded integers;
`n` trials are more than any `n` needs. -/
def isPrimeF (n : Nat) : Option Bool :=
  if n < 3 then none
  else if n % 2 = 0 then none
  else some (noOddDivisor n n 3)

/-- The writes of ISPRIME (R129). -/
def evalIsprime (s : State) : Except ErrCode State :=
  match isPrimeF s.prN.toNat with
  | none => .error .param
  | some b => .ok { s with prRes := b }

/-- ISPRIME (R129). -/
def execIsprime (s : State) : Host.Outcome State Fault Refusal := commit s (evalIsprime s)

end Sys2Proof.Machine
end

