-- ==== Sys2Proof/Machine/Cipher.lean ====
section
/-! DEFINITION. The cipher kernel and the asymmetric shift (spec 43_cipher.md). -/

namespace Sys2Proof.Machine

/-- The shift amount of R161: `(id *32 size +32 i) mod 32`. -/
def shiftAmount (id size : Word) (i : Nat) : Nat := (id * size + BitVec.ofNat 32 i).toNat % 32

/-- One byte of R161 from the 64-bit `ival`, the CRC, the shifted word `x` and the input byte. -/
def processByte (ival : DWord) (crc x : Word) (b : Byte) : Byte :=
  (ival - crc.setWidth 64 - x.setWidth 64 - b.setWidth 64).setWidth 8

/-- The bytes of R161 from index `i` on: `iv` reads a word of the schedule, `vs` is its length. -/
def processFrom (iv : Nat → Word) (vs : Nat) (ival : DWord) (crc id size : Word) (i : Nat) :
    List Byte → List Byte
  | [] => []
  | b :: bs =>
    processByte ival crc (shl32 (iv (i % vs)) (shiftAmount id size i)) b
      :: processFrom iv vs ival crc id size (i + 1) bs

/-- `process_f(block, crc, id)` under a key schedule (R161). -/
def processF (iv : Nat → Word) (vs : Nat) (ival : DWord) (crc id : Word) (block : List Byte) : List Byte :=
  processFrom iv vs ival crc id (BitVec.ofNat 32 block.length) 0 block

/-- `process_f` under the key schedule and the `CHUNK_ID` that `s` holds. -/
def State.process (s : State) (crc : Word) (block : List Byte) : List Byte :=
  processF s.ivWord s.vecSize.toNat s.ival crc s.chunkId block

/-- The writes of a command that produces output (R34): OBUF from index 0, and `OUT_LEN`. The rest of OBUF is kept (R61, log
entry 12). -/
def State.storeOutput (s : State) (out : List Byte) : State :=
  { s with obuf := s.obuf.writeRange 0 out, outLen := BitVec.ofNat 32 out.length }

/-- The writes of XFORM (R160). -/
def evalXform (s : State) : Except ErrCode State :=
  if s.vecSize = 0#32 then .error .uninit
  else if s.par.bufferSize < s.inLen.toNat then .error .resource
  else .ok (s.storeOutput (s.process s.hCrc (s.ibufBytes 0 s.inLen.toNat)))

/-- XFORM (R160). -/
def execXform (s : State) : Host.Outcome State Fault Refusal := commitOutput s (evalXform s)

/-- The shift byte on encrypt: `(RAND +32 crc)[7:0]` (R166). -/
def State.shiftByte (s : State) (crc : Word) : Byte := (s.rand + crc).setWidth 8

/-- `asym_enc`: the shifted bytes and the header's shift field (R166). -/
def State.asymEnc (s : State) (crc : Word) (t : List Byte) : Except ErrCode (List Byte × Word) :=
  match modpowF ((s.shiftByte crc).setWidth 32) s.keyExponent s.keyModulus with
  | none => .error .param
  | some field => .ok (t.map (fun b => b + s.shiftByte crc), field)

/-- `asym_dec`: the bytes with the recovered shift byte taken off again (R167). -/
def State.asymDec (s : State) (field : Word) (p : List Byte) : Except ErrCode (List Byte) :=
  match modpowF field s.keyExponent s.keyModulus with
  | none => .error .param
  | some r => .ok (p.map (fun b => b - r.setWidth 8))

end Sys2Proof.Machine
end

