-- ==== Sys2Proof/Machine/Crc.lean ====
section
/-! DEFINITION. The CRC unit (spec 40_crc.md): the table-driven function of R110 and R111, the
whole-message CRC of 00_scope.md R17, and the two commands. -/

namespace Sys2Proof.Machine

/-- One step of the recurrence of R110 and R112. -/
def crcShift (c : Word) : Word := if c.getLsbD 0 then (c >>> 1) ^^^ Config.crcPoly else c >>> 1

/-- `k` steps of the recurrence. -/
def crcShifts : Nat → Word → Word
  | 0, c => c
  | k + 1, c => crcShifts k (crcShift c)

/-- `T[n]` (R110). -/
def crcTable (n : Byte) : Word := crcShifts 8 (n.setWidth 32)

/-- One byte of R111: `T[(r XOR b)[7:0]] XOR (r >> 8)`. -/
def crcByte (r : Word) (b : Byte) : Word := crcTable ((r ^^^ b.setWidth 32).setWidth 8) ^^^ (r >>> 8)

/-- `crc_update(r, seq)` (R111). -/
def crcUpdate (r : Word) : List Byte → Word
  | [] => r
  | b :: bs => crcUpdate (crcByte r b) bs

/-- `CRC32(seq)` (R17). -/
def crc32 (bytes : List Byte) : Word := crcUpdate Config.crcPreset bytes ^^^ Config.crcXorOut

/-- The common body of R113 and R114: the CRC of the input buffer from the raw register value `start`. -/
def evalCrc (start : Word) (s : State) : Except ErrCode State :=
  if s.par.dbuf < s.inLen.toNat then .error .resource
  else .ok { s with crcRaw := crcUpdate start (s.ibufBytes 0 s.inLen.toNat) }

/-- CRC_RUN (R113). -/
def execCrcRun (s : State) : Host.Outcome State Fault Refusal := commit s (evalCrc s.crcInit s)

/-- CRC_CONT (R114). -/
def execCrcCont (s : State) : Host.Outcome State Fault Refusal := commit s (evalCrc s.crcRaw s)

end Sys2Proof.Machine
end

