-- ==== Sys2Proof/Machine/Framing.lean ====
section
/-! DEFINITION. Chunk framing (spec 44_framing.md): the header format (R180, R181), the two header commands and the two
chunk commands. -/

namespace Sys2Proof.Machine

/-- A chunk header as its fields (R180). -/
structure Header where
  sig0 : Byte
  sig1 : Byte
  sig2 : Byte
  type : Byte
  osize : Word
  esize : Word
  crc : Word
  shift : Word
deriving DecidableEq, Repr

/-- `hdr_bytes(t, os, es, c, sh)` (R181). -/
def hdrBytes (p : Params) (t : Byte) (os es c sh : Word) : List Byte :=
  [p.sig0, p.sig1, p.sig2, t] ++ be32 os ++ be32 es ++ be32 c ++ be32 sh

/-- Four bytes of a sequence, from index `i`, as a big-endian word. -/
def wordAt (h : List Byte) (i : Nat) : Word :=
  unbe32 (h.getD i 0#8) (h.getD (i + 1) 0#8) (h.getD (i + 2) 0#8) (h.getD (i + 3) 0#8)

/-- `hdr_parse(h)` of a 20-byte sequence (R181). -/
def hdrParse (h : List Byte) : Header :=
  { sig0 := h.getD 0 0#8, sig1 := h.getD 1 0#8, sig2 := h.getD 2 0#8
    type := h.getD 3 0#8
    osize := wordAt h 4, esize := wordAt h 8, crc := wordAt h 12, shift := wordAt h 16 }

/-- The header in IBUF`[0, 20)`. -/
def State.inputHeader (s : State) : Header := hdrParse (s.ibufBytes 0 Config.hdrLen)

/-- Whether a header carries `P_SIGNATURE`. -/
def Header.signed (h : Header) (p : Params) : Bool :=
  h.sig0 == p.sig0 && h.sig1 == p.sig1 && h.sig2 == p.sig2

/-- The `H_*` registers written from a header, whatever its type (R47 to R51). -/
def State.storeHeader (s : State) (h : Header) : State :=
  { s with hType := h.type, hOsize := h.osize, hEsize := h.esize, hCrc := h.crc, hShift := h.shift }

/-- The writes of HDR_PACK; `H_ESIZE` goes out as given for every type (R182). -/
def evalHdrPack (s : State) : Except ErrCode State :=
  if validType s.par s.hType then
    .ok (s.storeOutput (hdrBytes s.par s.hType s.hOsize s.hEsize s.hCrc s.hShift))
  else .error .param

/-- HDR_PACK (R182). -/
def execHdrPack (s : State) : Host.Outcome State Fault Refusal := commitOutput s (evalHdrPack s)

/-- The checks HDR_UNPACK makes and DEC_CHUNK repeats: a whole header, the signature, the type
byte (R184, R192). -/
def checkHeader (s : State) : Except ErrCode Header :=
  if s.inLen.toNat < Config.hdrLen then .error .format
  else if !s.inputHeader.signed s.par then .error .format
  else if !validType s.par s.inputHeader.type then .error .format
  else .ok s.inputHeader

/-- The writes of HDR_UNPACK (R184). -/
def evalHdrUnpack (s : State) : Except ErrCode State :=
  match checkHeader s with
  | .error e => .error e
  | .ok h => .ok (s.storeHeader h)

/-- HDR_UNPACK (R184). -/
def execHdrUnpack (s : State) : Host.Outcome State Fault Refusal := commit s (evalHdrUnpack s)

/-- The checks of ENC_CHUNK before any computation, in their order (R188). -/
def encChecks (s : State) : Except ErrCode Unit :=
  if s.vecSize = 0#32 then .error .uninit
  else if !validType s.par s.hType then .error .param
  else if s.simple && s.hType != Config.encBinary then .error .param
  else if s.par.bufferSize < s.inLen.toNat then .error .resource
  else if s.keyLen ≠ 0#32 ∧ s.par.keyMax < s.keyLen.toNat then .error .param
  else .ok ()

/-- The asymmetric shift on encrypt, applied exactly in Asymmetric mode (R187, R188). -/
def State.encShift (s : State) (crc : Word) (t : List Byte) : Except ErrCode (List Byte × Word) :=
  if s.keyLen = 0#32 then .ok (t, 0#32) else s.asymEnc crc t

/-- The esize that ENC_CHUNK writes: 0 for Binary, else the host's `H_ESIZE` (R185, R188). -/
def State.encEsize (s : State) : Word := if s.hType = Config.encBinary then 0#32 else s.hEsize

/-- The last lines of R188: a chunk with payload `c` and shift field `field` stored. -/
def State.storeChunk (s : State) (crc field : Word) (c : List Byte) : State :=
  { s.storeOutput (hdrBytes s.par s.hType s.inLen s.encEsize crc field ++ c) with
    hOsize := s.inLen, hEsize := s.encEsize, hCrc := crc, hShift := field }

/-- The writes of ENC_CHUNK (R188). -/
def evalEncChunk (s : State) : Except ErrCode State :=
  match encChecks s with
  | .error e => .error e
  | .ok () =>
    let m := s.ibufBytes 0 s.inLen.toNat
    let crc := crc32 m
    match s.encShift crc (s.process crc m) with
    | .error e => .error e
    | .ok (c, field) => .ok (s.storeChunk crc field c)

/-- ENC_CHUNK (R188). -/
def execEncChunk (s : State) : Host.Outcome State Fault Refusal := commitOutput s (evalEncChunk s)

/-- The checks of DEC_CHUNK up to the payload, in their order (R192). -/
def decChecks (s : State) : Except ErrCode Header :=
  if s.vecSize = 0#32 then .error .uninit
  else if s.par.dbuf < s.inLen.toNat then .error .resource
  else
    match checkHeader s with
    | .error e => .error e
    | .ok h =>
      if s.simple && h.type != Config.encBinary then .error .param
      else if s.par.bufferSize < h.osize.toNat then .error .resource
      else if s.inLen.toNat - Config.hdrLen < h.osize.toNat then .error .format
      else .ok h

/-- The asymmetric shift on decrypt, inverted exactly when the shift field is non-zero (R168, R187, R192). -/
def State.decShift (s : State) (field : Word) (p : List Byte) : Except ErrCode (List Byte) :=
  if field = 0#32 then .ok p
  else if s.keyLen = 0#32 then .error .uninit
  else if s.par.keyMax < s.keyLen.toNat then .error .param
  else s.asymDec field p

/-- The writes of DEC_CHUNK (R192). -/
def evalDecChunk (s : State) : Except ErrCode State :=
  match decChecks s with
  | .error e => .error e
  | .ok h =>
    match s.decShift h.shift (s.ibufBytes Config.hdrLen h.osize.toNat) with
    | .error e => .error e
    | .ok q =>
      let m := s.process h.crc q
      if !s.simple && crc32 m != h.crc then .error .integrity
      else .ok ((s.storeOutput m).storeHeader h)

/-- DEC_CHUNK (R192). -/
def execDecChunk (s : State) : Host.Outcome State Fault Refusal := commitOutput s (evalDecChunk s)

end Sys2Proof.Machine
end

