-- ==== Sys2Proof/Machine/KeySchedule.lean ====
section
/-! DEFINITION. The key-schedule unit (spec 42_keysched.md): the checks of R141, the formulas of R142 to R146, the command
KS_DERIVE (R140). -/

namespace Sys2Proof.Machine

/-- The terms of `iSalt` from byte `i` on (R142). -/
def iSaltFrom (bits : Nat) (i : Nat) : List Byte → DWord
  | [] => 0#64
  | b :: bs => ipow64 b (i + 1) * BitVec.ofNat 64 bits + iSaltFrom bits (i + 1) bs

/-- `iSalt` (R142). -/
def iSalt (bits : Nat) (salt : List Byte) : DWord := iSaltFrom bits 0 salt

/-- `passSum`, a natural number (R143). -/
def passSum : List Byte → Nat
  | [] => 0
  | b :: bs => b.toNat + passSum bs

/-- The terms of `initial` from byte `i` on (R143). -/
def initialFrom (isalt : DWord) (i : Nat) : List Byte → DWord
  | [] => 0#64
  | b :: bs => shl64 (b.setWidth 64 + isalt) (i + 1) + initialFrom isalt (i + 1) bs

/-- `initial` (R143). -/
def initialSum (isalt : DWord) (pw : List Byte) : DWord := initialFrom isalt 0 pw

/-- Byte `i` of a password; asked for only at `i < pl`. -/
def passByte (pw : List Byte) (i : Nat) : Byte := pw.getD i 0#8

/-- `iv[k]`, where `base` is `initial + iSalt` and `psum` is `passSum` (R144). -/
def ivEntry (base : DWord) (psum : Nat) (pw : List Byte) (k : Nat) : Word :=
  let val := (passByte pw (k % pw.length)).toNat
  let b := passByte pw ((psum - val) % pw.length)
  (base + ipow64 b ((psum + k) / val)).setWidth 32

/-- `iv[0 .. vs-1]` (R144). -/
def ivWords (bits : Nat) (salt pw : List Byte) (vs : Nat) : List Word :=
  let isalt := iSalt bits salt
  (List.range vs).map (ivEntry (initialSum isalt pw + isalt) (passSum pw) pw)

/-- The sum of the words, each widened to 64 bits (R145). -/
def wordSum : List Word → DWord
  | [] => 0#64
  | v :: vs => v.setWidth 64 + wordSum vs

/-- `ival`: `initial` once, plus the sum of the truncated words (R145). -/
def ivalOf (initial : DWord) (words : List Word) : DWord := initial + wordSum words

/-- The checks of R141 in their order; on success `vs` (R146). -/
def ksChecks (s : State) : Except ErrCode Nat :=
  if s.saltLen = 0#32 ∨ s.par.saltMax < s.saltLen.toNat then .error .param
  else if s.passLen = 0#32 ∨ s.par.passMax < s.passLen.toNat then .error .param
  else if s.passBytes.contains 0#8 then .error .param
  else if s.multiplier < s.par.minMult then .error .param
  else if s.par.vecMax < s.saltLen.toNat * s.passLen.toNat * s.multiplier then .error .resource
  else .ok (s.saltLen.toNat * s.passLen.toNat * s.multiplier)

/-- A key schedule stored (R140). IV words at `vs` and beyond are kept. -/
def State.storeSchedule (s : State) (words : List Word) (ival : DWord) : State :=
  { s with
    iv := s.iv.writeRange 0 words
    vecSize := BitVec.ofNat 32 words.length
    ivalHi := ival.extractLsb' 32 32
    ivalLo := ival.extractLsb' 0 32 }

/-- The writes of KS_DERIVE (R140). -/
def evalKsDerive (s : State) : Except ErrCode State :=
  match ksChecks s with
  | .error e => .error e
  | .ok vs =>
    let salt := s.saltBytes
    let pw := s.passBytes
    let words := ivWords s.par.bits salt pw vs
    .ok (s.storeSchedule words (ivalOf (initialSum (iSalt s.par.bits salt) pw) words))

/-- KS_DERIVE (R140). -/
def execKsDerive (s : State) : Host.Outcome State Fault Refusal := commit s (evalKsDerive s)

end Sys2Proof.Machine
end

