-- ==== Sys2Proof/Machine/Dispatch.lean ====
section
/-! DEFINITION. The commit of each command, one arm per constructor (spec 30_encoding.md R93, R97). -/

namespace Sys2Proof.Machine

def exec (i : Instr) (s : State) : Host.Outcome State Fault Refusal :=
  match i with
  | .nop => Sys2Proof.Machine.execNop s
  | .cleanup => Sys2Proof.Machine.execCleanup s
  | .crcRun => Sys2Proof.Machine.execCrcRun s
  | .crcCont => Sys2Proof.Machine.execCrcCont s
  | .modpow => Sys2Proof.Machine.execModpow s
  | .isprime => Sys2Proof.Machine.execIsprime s
  | .ksDerive => Sys2Proof.Machine.execKsDerive s
  | .xform => Sys2Proof.Machine.execXform s
  | .hdrPack => Sys2Proof.Machine.execHdrPack s
  | .hdrUnpack => Sys2Proof.Machine.execHdrUnpack s
  | .encChunk => Sys2Proof.Machine.execEncChunk s
  | .decChunk => Sys2Proof.Machine.execDecChunk s

end Sys2Proof.Machine
end

