-- ==== Sys2Proof/Machine/Flags.lean ====
section
/-! DEFINITION. The status flags: `STATUS` as a word, its write-one-to-clear bits (spec 10_state.md R25),
the error code as a word (R26) and the interrupt output (60_exceptions.md R226). -/

namespace Sys2Proof.Machine

/-- A flag at bit position `k` of a register. -/
def flagAt (b : Bool) (k : Nat) : Word := (BitVec.ofBool b).setWidth 32 <<< k

/-- `STATUS.KS_VALID`: 1 exactly when `VEC_SIZE != 0` (R25). -/
def State.ksValid (s : State) : Bool := s.vecSize != 0#32

/-- `STATUS.KEY_VALID`: 1 exactly when `KEY_LEN != 0`, Asymmetric mode (R25, R187). -/
def State.keyValid (s : State) : Bool := s.keyLen != 0#32

/-- `STATUS` as it reads; bits 31:6 read 0 (R25). While a command is in flight it
"behaves normally" (R76). -/
def State.statusWord (s : State) : Word :=
  flagAt s.busy 0 ||| flagAt s.done 1 ||| flagAt s.err 2 ||| flagAt s.wrbusy 3
    ||| flagAt s.ksValid 4 ||| flagAt s.keyValid 5

/-- A host write to `STATUS` clears the W1C bits whose written value is 1 (R25). -/
def State.clearStatus (s : State) (v : Word) : State :=
  { s with
    done := s.done && !v.getLsbD 1
    err := s.err && !v.getLsbD 2
    wrbusy := s.wrbusy && !v.getLsbD 3 }

/-- The interrupt output, a level: a combinational function of four state bits (R226). -/
def State.irq (s : State) : Bool := (s.done && s.doneIe) || (s.err && s.errIe)

end Sys2Proof.Machine
end

