-- ==== Sys2Proof/Machine/Port.lean ====
section
/-! DEFINITION. The host port (spec 20_memory.md): the register map, reads and writes of each register, the buffer port,
and a host transaction. -/

namespace Sys2Proof.Machine

/-- The byte offset of a register (R21). -/
def regOffset : Reg → Nat
  | .id => 0x00 | .cmd => 0x04 | .status => 0x08 | .errcode => 0x0C
  | .ctrl => 0x10 | .ien => 0x14 | .sig => 0x18 | .bufSel => 0x1C
  | .bufAddr => 0x20 | .bufData => 0x24 | .inLen => 0x28 | .outLen => 0x2C
  | .saltLen => 0x30 | .passLen => 0x34 | .mult => 0x38 | .vecSize => 0x3C
  | .ivalLo => 0x40 | .ivalHi => 0x44 | .keyLen => 0x48 | .chunkId => 0x4C
  | .rand => 0x50 | .crcInit => 0x54 | .crcRaw => 0x58 | .crcOut => 0x5C
  | .hType => 0x60 | .hOsize => 0x64 | .hEsize => 0x68 | .hCrc => 0x6C
  | .hShift => 0x70 | .mpBase => 0x74 | .mpExp => 0x78 | .mpMod => 0x7C
  | .mpRes => 0x80 | .prNLo => 0x84 | .prNHi => 0x88 | .prRes => 0x8C

/-- The 36 registers (R20). -/
def allRegs : List Reg :=
  [ .id, .cmd, .status, .errcode, .ctrl, .ien, .sig, .bufSel, .bufAddr, .bufData,
    .inLen, .outLen, .saltLen, .passLen, .mult, .vecSize, .ivalLo, .ivalHi, .keyLen, .chunkId,
    .rand, .crcInit, .crcRaw, .crcOut, .hType, .hOsize, .hEsize, .hCrc, .hShift,
    .mpBase, .mpExp, .mpMod, .mpRes, .prNLo, .prNHi, .prRes ]

/-- The word index `off[7:2]` by which the port names a register (R71). -/
def regIndex (r : Reg) : BitVec 6 := BitVec.ofNat 6 (regOffset r / 4)

/-- The register of a list that lies at a byte offset. -/
def findReg (off : Nat) : List Reg → Option Reg
  | [] => none
  | r :: rs => if regOffset r = off then some r else findReg off rs

/-- The register at a word index; `none` at the reserved offsets `0x90` to `0xFC` (R22). -/
def regAt (index : BitVec 6) : Option Reg := findReg (index.toNat * 4) allRegs

/-- The memory a `BUF_SEL` value selects; 7 selects none (R30). -/
def bufOf (sel : BitVec 3) : Option Buf :=
  if sel = 0#3 then some .ibuf
  else if sel = 1#3 then some .obuf
  else if sel = 2#3 then some .salt
  else if sel = 3#3 then some .pass
  else if sel = 4#3 then some .iv
  else if sel = 5#3 then some .keyn
  else if sel = 6#3 then some .keyx
  else none

/-- How many elements of a memory the port answers for: the capacity, or the gate `OUT_LEN` or
`VEC_SIZE` (R73). -/
def State.readable (s : State) : Buf → Nat
  | .obuf => s.outLen.toNat
  | .iv => s.vecSize.toNat
  | b => s.par.capacity b

/-- Element `a` of a memory as a word: bytes are zero-extended (R73). -/
def State.element (s : State) (b : Buf) (a : Nat) : Word :=
  match b with
  | .ibuf => (s.ibuf.read .ibuf s.draw a).setWidth 32
  | .obuf => (s.obuf.read .obuf s.draw a).setWidth 32
  | .salt => (s.salt.read .salt s.draw a).setWidth 32
  | .pass => (s.pass.read .pass s.draw a).setWidth 32
  | .iv => s.iv.read .iv s.draw a
  | .keyn => s.keyn.read .keyn s.draw a
  | .keyx => s.keyx.read .keyx s.draw a

/-- The value `RD(BUF_DATA)` returns (R73). -/
def State.bufData (s : State) : Word :=
  match bufOf s.bufSel with
  | none => 0#32
  | some b => if s.bufAddr.toNat < s.readable b then s.element b s.bufAddr.toNat else 0#32

/-- `BUF_ADDR <- BUF_ADDR +32 1` (R31). -/
def State.bumpAddr (s : State) : State := { s with bufAddr := s.bufAddr + 1#32 }

/-- Element `a` of a memory stored by the port; OBUF and IV take no host write (R74). -/
def State.storeElement (s : State) (b : Buf) (a : Nat) (v : Word) : State :=
  match b with
  | .ibuf => { s with ibuf := s.ibuf.write a (v.setWidth 8) }
  | .obuf => s
  | .salt => { s with salt := s.salt.write a (v.setWidth 8) }
  | .pass => { s with pass := s.pass.write a (v.setWidth 8) }
  | .iv => s
  | .keyn => { s with keyn := s.keyn.write a v }
  | .keyx => { s with keyx := s.keyx.write a v }

/-- The store `WR(BUF_DATA, v)` makes, before `BUF_ADDR` moves: data out of range is discarded, silently (R74). -/
def State.storeData (s : State) (v : Word) : State :=
  match bufOf s.bufSel with
  | none => s
  | some b =>
    if s.bufAddr.toNat < s.par.capacity b then s.storeElement b s.bufAddr.toNat v else s

/-- What a register reads as while `BUSY = 0`, reserved bits as 0 (R72). -/
def State.readReg (s : State) : Reg → Word
  | .id => Config.blockId
  | .cmd => s.cmd
  | .status => s.statusWord
  | .errcode => s.errcode.setWidth 32
  | .ctrl => flagAt s.simple 0
  | .ien => flagAt s.doneIe 1 ||| flagAt s.errIe 2
  | .sig => 0#8 ++ s.par.sig0 ++ s.par.sig1 ++ s.par.sig2
  | .bufSel => s.bufSel.setWidth 32
  | .bufAddr => s.bufAddr
  | .bufData => s.bufData
  | .inLen => s.inLen
  | .outLen => s.outLen
  | .saltLen => s.saltLen
  | .passLen => s.passLen
  | .mult => s.mult
  | .vecSize => s.vecSize
  | .ivalLo => s.ivalLo
  | .ivalHi => s.ivalHi
  | .keyLen => s.keyLen
  | .chunkId => s.chunkId
  | .rand => s.rand
  | .crcInit => s.crcInit
  | .crcRaw => s.crcRaw
  | .crcOut => s.crcRaw ^^^ Config.crcXorOut
  | .hType => s.hType.setWidth 32
  | .hOsize => s.hOsize
  | .hEsize => s.hEsize
  | .hCrc => s.hCrc
  | .hShift => s.hShift
  | .mpBase => s.mpBase
  | .mpExp => s.mpExp
  | .mpMod => s.mpMod
  | .mpRes => s.mpRes
  | .prNLo => s.prNLo
  | .prNHi => s.prNHi
  | .prRes => flagAt s.prRes 0

/-- What a read of a register changes: only `BUF_DATA` has a side effect (R72, R84). -/
def State.readEffect (s : State) : Reg → State
  | .bufData => s.bumpAddr
  | _ => s

/-- A host write to a register while `BUSY = 0`: reserved bits are forced to 0, a read-only register is left (R72). -/
def State.writeReg (s : State) (r : Reg) (v : Word) : State :=
  match r with
  | .cmd => s.accept v
  | .status => s.clearStatus v
  | .ctrl => { s with simple := v.getLsbD 0 }
  | .ien => { s with doneIe := v.getLsbD 1, errIe := v.getLsbD 2 }
  | .bufSel => { s with bufSel := v.setWidth 3 }
  | .bufAddr => { s with bufAddr := v }
  | .bufData => (s.storeData v).bumpAddr
  | .inLen => { s with inLen := v }
  | .saltLen => { s with saltLen := v }
  | .passLen => { s with passLen := v }
  | .mult => { s with mult := v }
  | .keyLen => { s with keyLen := v }
  | .chunkId => { s with chunkId := v }
  | .rand => { s with rand := v }
  | .crcInit => { s with crcInit := v }
  | .hType => { s with hType := v.setWidth 8 }
  | .hOsize => { s with hOsize := v }
  | .hEsize => { s with hEsize := v }
  | .hCrc => { s with hCrc := v }
  | .hShift => { s with hShift := v }
  | .mpBase => { s with mpBase := v }
  | .mpExp => { s with mpExp := v }
  | .mpMod => { s with mpMod := v }
  | .prNLo => { s with prNLo := v }
  | .prNHi => { s with prNHi := v }
  | .id | .errcode | .sig | .outLen | .vecSize | .ivalLo | .ivalHi
  | .crcRaw | .crcOut | .mpRes | .prRes => s

/-- What the port answers to a read, log entry 6 for the free value (R72, R76). -/
def State.readPort (s : State) (index : BitVec 6) : Word :=
  if s.busy then
    if index = regIndex .status then s.statusWord else Config.busyRead s.draw index
  else
    match regAt index with
    | some r => s.readReg r
    | none => 0#32

/-- `RD` at a word index: nothing changes while busy (R76), else only what the register's read changes. -/
def State.rd (s : State) (index : BitVec 6) : State :=
  { (if s.busy then s
     else match regAt index with
       | some r => s.readEffect r
       | none => s) with rdata := some (s.readPort index) }

/-- `WR` at a word index: while busy discarded in full but for `WRBUSY` (R76); a reserved offset takes nothing (R22). -/
def State.wr (s : State) (index : BitVec 6) (v : Word) : State :=
  if s.busy then { s with wrbusy := true }
  else
    match regAt index with
    | some r => s.writeReg r v
    | none => s

/-- One host transaction; every transaction completes (R71, R78). -/
def State.transact (s : State) : Transaction → State
  | .rd index => s.rd index
  | .wr index v => s.wr index v

end Sys2Proof.Machine
end

