-- ==== Sys2Proof/Machine/Sequencer.lean ====
section
/-! DEFINITION. What one turn of a run does: a commit, a host transaction, or a change of `rst` (spec
30_encoding.md R97, 20_memory.md R78 and R79, 70_reset_and_hazards.md R250 and R263). -/

namespace Sys2Proof.Machine

/-- The commit of the command in flight: the command word is evaluated, and an illegal one commits as a failure
that changes nothing else (R94, R97). -/
def commitStep (s : State) : Host.Outcome State Fault Refusal :=
  match decode s.cmd with
  | .ok i => exec i s
  | .error _ => commit s (.error .illcmd)

/-- A turn of the sequencer: a commit is enabled only while `BUSY = 1`, and while `rst` is asserted there is none
(R250, R263). -/
def sequencerTurn (s : State) : Host.Outcome State Fault Refusal :=
  if s.rst then .next s
  else if s.busy then commitStep s
  else .next s

/-- A host transaction; while `rst` is asserted MCB performs none (R250, log entry 8). -/
def hostTurn (t : Transaction) (s : State) : Host.Outcome State Fault Refusal :=
  if s.rst then .next s else .next (s.transact t)

/-- `rst` rises: a command in flight is abandoned without commit, and the registers take their reset values (R250). -/
def assertTurn (s : State) : Host.Outcome State Fault Refusal :=
  .next { s.resetRegisters with rst := true }

/-- `rst` falls: "When `rst` is released every register holds its reset value" (R250). -/
def releaseTurn (s : State) : Host.Outcome State Fault Refusal :=
  if s.rst then .next { s.resetRegisters with rst := false } else .next s

/-- One turn of the run. With no turn left the host is silent: a command in flight still commits (R268,
log entry 4), and otherwise nothing changes (R263). -/
def runTurn (s : State) : Host.Outcome State Fault Refusal :=
  match s.turns with
  | [] => if s.busy && !s.rst then commitStep s.advance else .next s
  | .host t :: _ => hostTurn t s.advance
  | .sequencer :: _ => sequencerTurn s.advance
  | .assertReset :: _ => assertTurn s.advance
  | .releaseReset :: _ => releaseTurn s.advance

/-- A command word `w` accepted, the sequencer next (R96): where MCB takes its next command from, since it fetches
nothing (R82, log entry 3). -/
def State.inFlight (s : State) (w : Word) : State :=
  { s.accept w with rst := false, turns := .sequencer :: s.turns }

end Sys2Proof.Machine
end

