-- ==== Sys2Proof/Machine/Step.lean ====
section
/-! DEFINITION. One step of MCB: a host transaction, a commit, or a change of `rst` (spec
70_reset_and_hazards.md R263). -/

namespace Sys2Proof.Machine

/-- One step: the next turn of the run. -/
def step (s : State) : Host.Outcome State Fault Refusal := runTurn s

/-- `s` with the command whose bits are `w` accepted and about to commit, which is all a fetch is here: the word is
taken from the data of the `WR(CMD, v)` transaction and never from a memory (R82, log entry 3). -/
def State.withFetchWord (s : State) (nbits w : Nat) : State :=
  s.inFlight (BitVec.ofNat 32 (w % 2 ^ nbits))

end Sys2Proof.Machine
end

