-- ==== Sys2Proof/Machine/Script.lean ====
section
/-! DEFINITION. Host-script statements as the turns they stand for (spec 30_encoding.md R99, R100). -/

namespace Sys2Proof.Machine

/-- `WR <reg>, <value>` (R99). -/
def wrTurn (r : Reg) (v : Word) : Turn := .host (.wr (regIndex r) v)

/-- `RD <reg>` (R99). -/
def rdTurn (r : Reg) : Turn := .host (.rd (regIndex r))

/-- The two writes that open a buffer-port transfer (R100). -/
def aimTurns (m : Buf) (addr : Word) : List Turn :=
  [wrTurn .bufSel ((bufNumber m).setWidth 32), wrTurn .bufAddr addr]

/-- `WAIT`: `RD STATUS` until `BUSY = 0`. `early` of the reads fall before the commit, the last one after it
(R79, R100, log entry 15). -/
def waitTurns (early : Nat) : List Turn :=
  List.replicate early (rdTurn .status) ++ [.sequencer, rdTurn .status]

/-- The expansion of a statement (R99, R100). Where the commit falls is open (R79, U7), and a script settles it: DESIGN CHOICE (log
entry 15), at the `commitHere` that follows the accept, and where there is none inside the WAIT, after its early reads. Both outcomes of the
vectors Q18 and Q19 are scripts. -/
def expand : Stmt → List Turn
  | .wr r v => [wrTurn r v]
  | .rd r => [rdTurn r]
  | .wrAt off v => [.host (.wr (BitVec.ofNat 6 (off / 4)) v)]
  | .rdAt off => [.host (.rd (BitVec.ofNat 6 (off / 4)))]
  | .cmd i => [wrTurn .cmd (encode i)]
  | .wait early => waitTurns early
  | .commitHere => [.sequencer]
  | .run i early => wrTurn .cmd (encode i) :: waitTurns early
  | .runWord w early => wrTurn .cmd w :: waitTurns early
  | .ldb m addr bytes => aimTurns m addr ++ bytes.map fun b => wrTurn .bufData (b.setWidth 32)
  | .ldw m addr words => aimTurns m addr ++ words.map fun w => wrTurn .bufData w
  | .rdb m addr n => aimTurns m addr ++ List.replicate n (rdTurn .bufData)
  | .rdw m addr n => aimTurns m addr ++ List.replicate n (rdTurn .bufData)
  | .ack => [wrTurn .status 0x0000000E#32]

/-- The expansion of a script. -/
def expandAll : List Stmt → List Turn
  | [] => []
  | st :: rest => expand st ++ expandAll rest

end Sys2Proof.Machine
end

