-- ==== Sys2Proof/Safety.lean ====
section
/-! DEFINITION. What counts as a good state and a well-behaved host, in the terms the statements use: the invariant of
every run, the host's duty to write what a command reads, and the columns of the spec's tables that statements quote. -/

namespace Sys2Proof.Machine

/-- Element `k` has been written since reset, by the host, by a commit or by CLEANUP. -/
def Memory.written {w : Nat} (m : Memory w) (k : Nat) : Bool := m.zeroed || (lookupCell k m.cells).isSome

/-- The elements `[0, n)` have been written since reset. -/
def Memory.writtenTo {w : Nat} (m : Memory w) (n : Nat) : Prop := ∀ k < n, m.written k = true

/-- The invariant of every run (log entry 17 for the parts the spec implies and does not state). -/
structure Inv (s : State) : Prop where
  /-- every memory is in its canonical form, within its capacity (R59) -/
  ibufWf : s.ibuf.wf s.par.dbuf = true
  obufWf : s.obuf.wf s.par.dbuf = true
  saltWf : s.salt.wf s.par.saltMax = true
  passWf : s.pass.wf s.par.passMax = true
  ivWf : s.iv.wf s.par.vecMax = true
  keynWf : s.keyn.wf s.par.keyMax = true
  keyxWf : s.keyx.wf s.par.keyMax = true
  /-- while a command is in flight `DONE = 0`, `ERR = 0` and `ERRCODE = 0` (R76, R96) -/
  busyDone : s.busy = true → s.done = false
  busyErr : s.busy = true → s.err = false
  busyErrcode : s.busy = true → s.errcode = 0#3
  /-- code 2 is never raised: MCB does no I/O (R220) -/
  noIoError : s.errcode ≠ 2#3
  /-- the gates lie within the capacities (R34, R38) -/
  outLenCap : s.outLen.toNat ≤ s.par.dbuf
  vecSizeCap : s.vecSize.toNat ≤ s.par.vecMax
  /-- "commands write every element they expose" (U1) -/
  outWritten : s.obuf.writtenTo s.outLen.toNat
  ivWritten : s.iv.writtenTo s.vecSize.toNat
  /-- a command in flight is abandoned when `rst` is asserted (R250) -/
  resetIdle : s.rst = true → s.busy = false

/-- The entries of KEYN and KEYX at `CHUNK_ID mod KEY_LEN` have been written, where there is key material (R165). -/
def State.keyWritten (s : State) : Prop :=
  s.keyLen ≠ 0#32 → s.keyLen.toNat ≤ s.par.keyMax →
    s.keyn.written (s.chunkId.toNat % s.keyLen.toNat) = true ∧ s.keyx.written (s.chunkId.toNat % s.keyLen.toNat) = true

/-- The host's duty before a command: "write every IBUF, SALT, PASS, KEYN, KEYX element a command will read, at least once
since reset" (R262). A range is asked for only where its length passes the check of the command that reads it. -/
def OperandsWritten (i : Instr) (s : State) : Prop :=
  match i with
  | .nop | .cleanup | .modpow | .isprime | .hdrPack => True
  | .crcRun | .crcCont => s.inLen.toNat ≤ s.par.dbuf → s.ibuf.writtenTo s.inLen.toNat
  | .ksDerive =>
    (s.saltLen.toNat ≤ s.par.saltMax → s.salt.writtenTo s.saltLen.toNat)
      ∧ (s.passLen.toNat ≤ s.par.passMax → s.pass.writtenTo s.passLen.toNat)
  | .xform =>
    (s.inLen.toNat ≤ s.par.bufferSize → s.ibuf.writtenTo s.inLen.toNat) ∧ s.iv.writtenTo s.vecSize.toNat
  | .hdrUnpack => Config.hdrLen ≤ s.inLen.toNat → s.ibuf.writtenTo Config.hdrLen
  | .encChunk =>
    (s.inLen.toNat ≤ s.par.bufferSize → s.ibuf.writtenTo s.inLen.toNat) ∧ s.iv.writtenTo s.vecSize.toNat
      ∧ s.keyWritten
  | .decChunk =>
    (s.inLen.toNat ≤ s.par.dbuf → s.ibuf.writtenTo s.inLen.toNat) ∧ s.iv.writtenTo s.vecSize.toNat ∧ s.keyWritten

/-- The commands whose failure writes `OUT_LEN <- 0`: those marked `*` in R98 (R222). -/
def dropsOutput : Instr → Bool
  | .xform | .hdrPack | .encChunk | .decChunk => true
  | .nop | .cleanup | .crcRun | .crcCont | .modpow | .isprime | .ksDerive | .hdrUnpack => false

/-- The codes a command can fail with: the last column of R98, by the numbers of R220. -/
def failureCodes : Instr → List (BitVec 3)
  | .nop | .cleanup => []
  | .crcRun | .crcCont => [5#3]
  | .modpow | .isprime | .hdrPack => [6#3]
  | .ksDerive => [6#3, 5#3]
  | .xform => [1#3, 5#3]
  | .hdrUnpack => [3#3]
  | .encChunk => [1#3, 6#3, 5#3]
  | .decChunk => [1#3, 3#3, 4#3, 5#3, 6#3]

/-- The implemented bits of the RW registers; `none` for a register of another access type (R21, R27, R28, R30, R47). -/
def rwMask : Reg → Option Word
  | .ctrl => some 0x00000001#32
  | .ien => some 0x00000006#32
  | .bufSel => some 0x00000007#32
  | .hType => some 0x000000FF#32
  | .bufAddr | .inLen | .saltLen | .passLen | .mult | .keyLen | .chunkId | .rand | .crcInit
  | .hOsize | .hEsize | .hCrc | .hShift | .mpBase | .mpExp | .mpMod | .prNLo | .prNHi => some 0xFFFFFFFF#32
  | .id | .cmd | .status | .errcode | .sig | .bufData | .outLen | .vecSize | .ivalLo | .ivalHi
  | .crcRaw | .crcOut | .mpRes | .prRes => none

/-- The reset column of R21, `none` where it gives none. -/
def resetColumn (p : Params) : Reg → Option Word
  | .id => some Config.blockId
  | .sig => some (0#8 ++ p.sig0 ++ p.sig1 ++ p.sig2)
  | .mult | .crcInit | .crcRaw => some 0xFFFFFFFF#32
  | .hType => some 0x00000010#32
  | .bufData => none
  | .cmd | .status | .errcode | .ctrl | .ien | .bufSel | .bufAddr | .inLen | .outLen | .saltLen | .passLen
  | .vecSize | .ivalLo | .ivalHi | .keyLen | .chunkId | .rand | .crcOut | .hOsize | .hEsize | .hCrc | .hShift
  | .mpBase | .mpExp | .mpMod | .mpRes | .prNLo | .prNHi | .prRes => some 0#32

/-- A turn of the host or of the sequencer: not a change of `rst`. -/
def isOrdinary : Turn → Bool
  | .host _ | .sequencer => true
  | .assertReset | .releaseReset => false

end Sys2Proof.Machine
end

