-- ==== Sys2Proof/Certificates/Slice0/Obligations.lean ====
section
/-! DEFINITION. The statements about MCB, each a proposition; the rule of the spec it formalises is named in its docstring. -/

open Sys2Proof Sys2Proof.Machine

/-! ## Command words -/

/-- R91: which of the 2^32 words are legal commands, and that each legal word stands for one command, the one `encode`
writes it for. -/
def Obligations.LegalWordsAreTheTwelveCommands : Prop :=
  ∀ w : Word,
    ((∃ i, decode w = .ok i) ↔
      (w.extractLsb' 8 24 = 0#24 ∧
        w.extractLsb' 0 8 ∈
          [0x00#8, 0x01#8, 0x10#8, 0x11#8, 0x20#8, 0x21#8, 0x30#8, 0x40#8, 0x50#8, 0x51#8, 0x60#8, 0x61#8])) ∧
    ∀ i, decode w = .ok i ↔ w = encode i

/-- The twelve words written out from the table of R93, and two words that are no command (R94). -/
def Obligations.SampleWordsDecode : Prop :=
  decode 0b00000000000000000000000000000000#32 = .ok .nop ∧
  decode 0b00000000000000000000000000000001#32 = .ok .cleanup ∧
  decode 0b00000000000000000000000000010000#32 = .ok .crcRun ∧
  decode 0b00000000000000000000000000010001#32 = .ok .crcCont ∧
  decode 0b00000000000000000000000000100000#32 = .ok .modpow ∧
  decode 0b00000000000000000000000000100001#32 = .ok .isprime ∧
  decode 0b00000000000000000000000000110000#32 = .ok .ksDerive ∧
  decode 0b00000000000000000000000001000000#32 = .ok .xform ∧
  decode 0b00000000000000000000000001010000#32 = .ok .hdrPack ∧
  decode 0b00000000000000000000000001010001#32 = .ok .hdrUnpack ∧
  decode 0b00000000000000000000000001100000#32 = .ok .encChunk ∧
  decode 0b00000000000000000000000001100001#32 = .ok .decChunk ∧
  decode 0b00000000000000000000000000000010#32 = .error .unassignedOpcode ∧
  decode 0b00000000000000000000000100000010#32 = .error .zeroFieldNotZero

/-! ## Steps, accept and commit -/

/-- R79, R97, R94, R78: a step at which the sequencer's turn has come, or at which the host is silent, runs the command that the word in flight
decodes to, and commits a word that is no command as a failure with code 7; a step at a host turn performs the transaction, one at a time and at once. Around both a step takes the turn, counts it and
clears the port's answer: the model's own fields (log entries 4, 7 and 14). -/
def Obligations.StepRunsDecodedCommand : Prop :=
  (∀ (s : State) (i : Instr), s.rst = false → s.busy = true →
    (s.turns = [] ∨ ∃ rest, s.turns = .sequencer :: rest) → decode s.cmd = .ok i → i.wellFormed = true →
    step s = exec i { s with turns := s.turns.tail, draw := s.draw + 1, rdata := none }) ∧
  (∀ (s : State) (e : DecodeError), s.rst = false → s.busy = true →
    (s.turns = [] ∨ ∃ rest, s.turns = .sequencer :: rest) → decode s.cmd = .error e →
    step s = .next { s with
      busy := false, done := true, err := true, errcode := 7#3
      turns := s.turns.tail, draw := s.draw + 1, rdata := none }) ∧
  ∀ (s : State) (index : BitVec 6) (v : Word) (rest : List Turn), s.rst = false →
    (s.turns = .host (.rd index) :: rest →
      step s = .next (State.rd { s with turns := rest, draw := s.draw + 1, rdata := none } index)) ∧
    (s.turns = .host (.wr index v) :: rest →
      step s = .next (State.wr { s with turns := rest, draw := s.draw + 1, rdata := none } index v))

/-- R263: with no transaction, no commit enabled and no change of `rst`, nothing changes; and where no command is in flight
the sequencer changes nothing but the model's own fields (log entries 4, 7 and 14). -/
def Obligations.NothingChangesOnItsOwn : Prop :=
  ∀ s : State, s.busy = false →
    (s.turns = [] → step s = .next s) ∧
    ∀ rest, s.turns = .sequencer :: rest →
      step s = .next { s with turns := rest, draw := s.draw + 1, rdata := none }

/-- Every step of every state completes: no fault and no refusal ("Every transaction completes", R71; "Every accepted command
commits", R268). That no step stops is the model's reading (log entry 13). -/
def Obligations.EveryStepCompletes : Prop :=
  ∀ s : State, ∃ t, step s = .next t

/-- R96: what accept writes, and that it writes nothing else and drops the interrupt output. -/
def Obligations.AcceptWritesExactly : Prop :=
  ∀ (s : State) (w : Word), s.busy = false →
    s.wr (regIndex .cmd) w = { s with cmd := w, busy := true, done := false, err := false, errcode := 0#3 } ∧
    (s.wr (regIndex .cmd) w).irq = false

/-- R94: an illegal word is accepted like any command and commits as a failure with code 7; nothing else changes, not even
`OUT_LEN`, and `CMD` reads back the word. -/
def Obligations.IllegalWordCommitsAsFailure : Prop :=
  ∀ (s : State) (w : Word), s.busy = false → (∀ i, w ≠ encode i) →
    s.wr (regIndex .cmd) w = { s with cmd := w, busy := true, done := false, err := false, errcode := 0#3 } ∧
    ∃ t, commitStep (s.wr (regIndex .cmd) w) = .next t ∧
      t = { s with cmd := w, busy := false, done := true, err := true, errcode := 7#3 } ∧
      t.readReg .cmd = w

/-- R97, R26: whatever the command and the state, the commit answers a next state with `BUSY = 0` and `DONE = 1`, in which `ERR` says
whether a code was raised; and a code raised is one of the command's column of R98. That success writes both
as 0 is the model's choice (log entry 10). -/
def Obligations.EveryCommitReportsItsOutcome : Prop :=
  ∀ (i : Instr) (s : State), ∃ t, exec i s = .next t ∧
    t.busy = false ∧ t.done = true ∧ t.cmd = s.cmd ∧ t.wrbusy = s.wrbusy ∧
    (t.err = true ↔ t.errcode ≠ 0#3) ∧
    (t.err = true → t.errcode ∈ failureCodes i)

/-- R222: the writes of a failed command, exactly; and that an illegal word, which fails too, does not write `OUT_LEN`. -/
def Obligations.FailedCommandWritesOnlyItsStatus : Prop :=
  (∀ (i : Instr) (s t : State), exec i s = .next t → t.err = true →
    t = { s with
            busy := false, done := true, err := true, errcode := t.errcode
            outLen := if dropsOutput i then 0#32 else s.outLen }) ∧
  ∀ (s : State) (e : DecodeError), decode s.cmd = .error e →
    commitStep s = .next { s with busy := false, done := true, err := true, errcode := 7#3 }

/-- R21, R98: what no command writes, whatever it does: the host's settings and inputs, IBUF, SALT, PASS, and the command word. -/
def Obligations.CommandsKeepTheHostsInputs : Prop :=
  ∀ (i : Instr) (s t : State), exec i s = .next t →
    t.par = s.par ∧ t.cmd = s.cmd ∧ t.wrbusy = s.wrbusy ∧ t.simple = s.simple ∧
    t.doneIe = s.doneIe ∧ t.errIe = s.errIe ∧ t.bufSel = s.bufSel ∧ t.bufAddr = s.bufAddr ∧
    t.inLen = s.inLen ∧ t.saltLen = s.saltLen ∧ t.passLen = s.passLen ∧ t.mult = s.mult ∧
    t.chunkId = s.chunkId ∧ t.rand = s.rand ∧ t.crcInit = s.crcInit ∧
    t.mpBase = s.mpBase ∧ t.mpExp = s.mpExp ∧ t.mpMod = s.mpMod ∧ t.prNLo = s.prNLo ∧ t.prNHi = s.prNHi ∧
    t.ibuf = s.ibuf ∧ t.salt = s.salt ∧ t.pass = s.pass ∧
    t.rst = s.rst ∧ t.rdata = s.rdata ∧ t.turns = s.turns ∧ t.draw = s.draw ∧
    (i ≠ .cleanup → t.keyLen = s.keyLen ∧ t.keyn = s.keyn ∧ t.keyx = s.keyx) ∧
    (i ≠ .cleanup → i ≠ .ksDerive →
      t.vecSize = s.vecSize ∧ t.ivalLo = s.ivalLo ∧ t.ivalHi = s.ivalHi ∧ t.iv = s.iv)

/-- R226: the interrupt output after a commit, from the two enables and whether the command failed. -/
def Obligations.InterruptAfterCommit : Prop :=
  ∀ (i : Instr) (s t : State), exec i s = .next t →
    (t.irq = true ↔ s.doneIe = true ∨ (t.errcode ≠ 0#3 ∧ s.errIe = true))

/-- R226, R263: the interrupt output changes only at an accept, at a commit, at a host write to `STATUS` or `IEN`, and at a change of `rst`. -/
def Obligations.InterruptChangesOnlyAtNamedEvents : Prop :=
  ∀ s t : State, step s = .next t → t.irq ≠ s.irq →
    (s.rst = false ∧ s.busy = false ∧
      ∃ r v rest, r ∈ [Reg.cmd, .status, .ien] ∧ s.turns = .host (.wr (regIndex r) v) :: rest) ∨
    (s.rst = false ∧ s.busy = true ∧ (s.turns = [] ∨ ∃ rest, s.turns = .sequencer :: rest)) ∨
    ∃ rest, s.turns = .assertReset :: rest ∨ s.turns = .releaseReset :: rest

/-- R223, R26: the error code changes only at an accept, at a commit and at a change of `rst`; clearing `ERR` leaves it. -/
def Obligations.ErrorCodeStaysUntilTheNextAccept : Prop :=
  ∀ s t : State, step s = .next t → t.errcode ≠ s.errcode →
    (s.rst = false ∧ s.busy = false ∧ ∃ v rest, s.turns = .host (.wr (regIndex .cmd) v) :: rest) ∨
    (s.rst = false ∧ s.busy = true ∧ (s.turns = [] ∨ ∃ rest, s.turns = .sequencer :: rest)) ∨
    ∃ rest, s.turns = .assertReset :: rest ∨ s.turns = .releaseReset :: rest

/-- R25: `WRBUSY` is sticky: only a host write of 1 to it while `BUSY = 0`, or reset, clears it; and only a host write while `BUSY = 1` sets
it. -/
def Obligations.WriteBusyFlagIsSticky : Prop :=
  ∀ s t : State, step s = .next t →
    (s.wrbusy = true → t.wrbusy = false →
      (s.rst = false ∧ s.busy = false ∧
        ∃ v rest, s.turns = .host (.wr (regIndex .status) v) :: rest ∧ v.getLsbD 3 = true) ∨
      ∃ rest, s.turns = .assertReset :: rest ∨ s.turns = .releaseReset :: rest) ∧
    (s.wrbusy = false → t.wrbusy = true →
      s.rst = false ∧ s.busy = true ∧ ∃ index v rest, s.turns = .host (.wr index v) :: rest)

/-- R34, R38, R98: the key schedule changes only at a commit of KS_DERIVE or CLEANUP and at a change of `rst`; OBUF and `OUT_LEN` change only at a
commit of XFORM, HDR_PACK, ENC_CHUNK or DEC_CHUNK and at a change of `rst`. -/
def Obligations.OnlyTheirCommandsMoveTheGatedMemories : Prop :=
  ∀ s t : State, step s = .next t →
    let committed (l : List Instr) :=
      s.rst = false ∧ s.busy = true ∧ (s.turns = [] ∨ ∃ rest, s.turns = .sequencer :: rest) ∧
        ∃ i ∈ l, decode s.cmd = .ok i
    let reset := ∃ rest, s.turns = .assertReset :: rest ∨ s.turns = .releaseReset :: rest
    (t.vecSize ≠ s.vecSize ∨ t.ivalLo ≠ s.ivalLo ∨ t.ivalHi ≠ s.ivalHi ∨ t.iv ≠ s.iv →
      committed [.ksDerive, .cleanup] ∨ reset) ∧
    (t.obuf ≠ s.obuf ∨ t.outLen ≠ s.outLen → committed [.xform, .hdrPack, .encChunk, .decChunk] ∨ reset)

/-- R67: a host write between accept and commit is discarded, so the commit gives what it would have given without it, but for
`WRBUSY`. -/
def Obligations.BusyWriteDoesNotDisturbTheCommit : Prop :=
  ∀ (s : State) (index : BitVec 6) (v : Word) (t : State), s.busy = true → commitStep s = .next t →
    commitStep (s.wr index v) = .next { t with wrbusy := true }

/-- R268: every accepted command commits. From a busy state whose run holds no change of `rst`, at most one step more than the
run has turns brings a state with `BUSY = 0` and `DONE = 1`. The step beyond the run is the model's fairness (log entry 4). -/
def Obligations.AcceptedCommandCommits : Prop :=
  ∀ s : State, s.rst = false → s.busy = true → (∀ u ∈ s.turns, isOrdinary u = true) →
    ∃ k, k ≤ s.turns.length + 1 ∧ ∃ t, Host.Core.run Sys2Proof.core k s = .next t ∧ t.busy = false ∧ t.done = true

/-- R100: a `WAIT` ends with a read of `STATUS` that finds `BUSY = 0`, however many of its reads fall before the commit (log
entry 15). -/
def Obligations.WaitEndsWithTheCommandCommitted : Prop :=
  ∀ (s : State) (early : Nat), s.rst = false → s.busy = true → s.turns = expand (.wait early) →
    ∃ t w, Host.Core.run Sys2Proof.core (early + 2) s = .next t ∧ t.turns = [] ∧ t.busy = false ∧
      t.rdata = some w ∧ w.getLsbD 0 = false ∧ w.getLsbD 1 = true

/-! ## The host port -/

/-- R25: how `STATUS` reads, bit by bit. -/
def Obligations.StatusReadsItsBits : Prop :=
  ∀ (s : State) (k : Nat),
    (s.readReg .status).getLsbD k =
      if k = 0 then s.busy else if k = 1 then s.done else if k = 2 then s.err else if k = 3 then s.wrbusy
      else if k = 4 then decide (s.vecSize ≠ 0#32) else if k = 5 then decide (s.keyLen ≠ 0#32) else false

/-- R25: a host write to `STATUS` while `BUSY = 0` affects only the W1C bits whose written value is 1, and leaves
`ERRCODE` (R223). R226, R227: the interrupt output at every moment, and so after a `STATUS` write, from the bits that remain, and after an `IEN`
write, from the enables written. -/
def Obligations.StatusWriteClearsOnlyWrittenOnes : Prop :=
  ∀ (s : State) (v : Word), s.busy = false →
    s.wr (regIndex .status) v =
      { s with
        done := if v.getLsbD 1 then false else s.done
        err := if v.getLsbD 2 then false else s.err
        wrbusy := if v.getLsbD 3 then false else s.wrbusy } ∧
    (s.irq = true ↔ (s.done = true ∧ s.doneIe = true) ∨ (s.err = true ∧ s.errIe = true)) ∧
    ((s.wr (regIndex .status) v).irq = true ↔
      (s.done = true ∧ v.getLsbD 1 = false ∧ s.doneIe = true) ∨ (s.err = true ∧ v.getLsbD 2 = false ∧ s.errIe = true)) ∧
    ((s.wr (regIndex .ien) v).irq = true ↔
      (s.done = true ∧ v.getLsbD 1 = true) ∨ (s.err = true ∧ v.getLsbD 2 = true))

/-- R72, R75: while `BUSY = 0` a write to an RW register, at its offset, changes the one field that holds its implemented bits and nothing else,
no memory among it; a read of the register then answers the written value with reserved bits as 0 and changes nothing; and no other
register reads otherwise than before, but for the two views: `STATUS` after a write of `KEY_LEN` (R25), `BUF_DATA` after a write of `BUF_SEL` or
`BUF_ADDR` (R73). -/
def Obligations.RwRegisterReadsBackItsBits : Prop :=
  ∀ (s : State) (v : Word), s.busy = false →
    (∀ p ∈ ([
          (0x10, { s with simple := v.getLsbD 0 }),
          (0x14, { s with doneIe := v.getLsbD 1, errIe := v.getLsbD 2 }),
          (0x1C, { s with bufSel := v.extractLsb' 0 3 }),
          (0x20, { s with bufAddr := v }),
          (0x28, { s with inLen := v }),
          (0x30, { s with saltLen := v }),
          (0x34, { s with passLen := v }),
          (0x38, { s with mult := v }),
          (0x48, { s with keyLen := v }),
          (0x4C, { s with chunkId := v }),
          (0x50, { s with rand := v }),
          (0x54, { s with crcInit := v }),
          (0x60, { s with hType := v.extractLsb' 0 8 }),
          (0x64, { s with hOsize := v }),
          (0x68, { s with hEsize := v }),
          (0x6C, { s with hCrc := v }),
          (0x70, { s with hShift := v }),
          (0x74, { s with mpBase := v }),
          (0x78, { s with mpExp := v }),
          (0x7C, { s with mpMod := v }),
          (0x84, { s with prNLo := v }),
          (0x88, { s with prNHi := v }) ] : List (Nat × State)),
      s.wr (BitVec.ofNat 6 (p.1 / 4)) v = p.2) ∧
    ∀ (r r' : Reg) (m : Word), rwMask r = some m →
      (s.wr (regIndex r) v).rd (regIndex r) = { s.wr (regIndex r) v with rdata := some (v &&& m) } ∧
      (r' ≠ r → (r' = .status → r ≠ .keyLen) → (r' = .bufData → r ≠ .bufSel ∧ r ≠ .bufAddr) →
        (s.wr (regIndex r) v).readPort (regIndex r') = s.readPort (regIndex r'))

/-- R21, R72, R84: the offset of every register; what an idle read answers at every offset but that of `BUF_DATA` (R73), a reserved offset
among them, and that it changes nothing (`rdata` is the port's answer, log entry 14); and R20, R22: that a write to a read-only register or a
reserved offset is discarded without any flag. -/
def Obligations.ReadOnlyAndReservedOffsetsTakeNoWrite : Prop :=
  (∀ p ∈ ([
        (.id, 0x00), (.cmd, 0x04), (.status, 0x08), (.errcode, 0x0C), (.ctrl, 0x10), (.ien, 0x14),
        (.sig, 0x18), (.bufSel, 0x1C), (.bufAddr, 0x20), (.bufData, 0x24), (.inLen, 0x28), (.outLen, 0x2C),
        (.saltLen, 0x30), (.passLen, 0x34), (.mult, 0x38), (.vecSize, 0x3C), (.ivalLo, 0x40), (.ivalHi, 0x44),
        (.keyLen, 0x48), (.chunkId, 0x4C), (.rand, 0x50), (.crcInit, 0x54), (.crcRaw, 0x58), (.crcOut, 0x5C),
        (.hType, 0x60), (.hOsize, 0x64), (.hEsize, 0x68), (.hCrc, 0x6C), (.hShift, 0x70), (.mpBase, 0x74),
        (.mpExp, 0x78), (.mpMod, 0x7C), (.mpRes, 0x80), (.prNLo, 0x84), (.prNHi, 0x88), (.prRes, 0x8C) ] : List (Reg × Nat)),
      regIndex p.1 = BitVec.ofNat 6 (p.2 / 4)) ∧
  ∀ (s : State) (v : Word), s.busy = false →
    (∀ p ∈ ([
          (0x00, 0x4D434231#32), (0x04, s.cmd), (0x08, s.readReg .status),
          (0x0C, s.errcode.setWidth 32), (0x10, if s.simple then 0x00000001#32 else 0#32),
          (0x14, (if s.doneIe then 0x00000002#32 else 0#32) ||| (if s.errIe then 0x00000004#32 else 0#32)),
          (0x18, 0#8 ++ s.par.sig0 ++ s.par.sig1 ++ s.par.sig2), (0x1C, s.bufSel.setWidth 32), (0x20, s.bufAddr),
          (0x28, s.inLen), (0x2C, s.outLen), (0x30, s.saltLen),
          (0x34, s.passLen), (0x38, s.mult), (0x3C, s.vecSize),
          (0x40, s.ivalLo), (0x44, s.ivalHi), (0x48, s.keyLen),
          (0x4C, s.chunkId), (0x50, s.rand), (0x54, s.crcInit),
          (0x58, s.crcRaw), (0x5C, s.crcRaw ^^^ 0xFFFFFFFF#32), (0x60, s.hType.setWidth 32),
          (0x64, s.hOsize), (0x68, s.hEsize), (0x6C, s.hCrc),
          (0x70, s.hShift), (0x74, s.mpBase), (0x78, s.mpExp),
          (0x7C, s.mpMod), (0x80, s.mpRes), (0x84, s.prNLo),
          (0x88, s.prNHi), (0x8C, if s.prRes then 0x00000001#32 else 0#32) ] : List (Nat × Word)),
      s.rd (BitVec.ofNat 6 (p.1 / 4)) = { s with rdata := some p.2 }) ∧
    (∀ off ∈ [0x00, 0x0C, 0x18, 0x2C, 0x3C, 0x40, 0x44, 0x58, 0x5C, 0x80, 0x8C],
      s.wr (BitVec.ofNat 6 (off / 4)) v = s) ∧
    ∀ index : BitVec 6, 0x90 / 4 ≤ index.toNat →
      s.wr index v = s ∧ s.rd index = { s with rdata := some 0#32 }

/-- R73: what `RD(BUF_DATA)` returns, case by case, and that it moves `BUF_ADDR` and nothing else. `rdata` is the port's
answer (log entry 14); an unwritten element reads as a free value (log entry 5). -/
def Obligations.BufferPortReadFollowsTheTable : Prop :=
  ∀ s : State, s.busy = false →
    s.rd (regIndex .bufData) =
      { s with
        bufAddr := s.bufAddr + 1#32
        rdata := some (
          let a := s.bufAddr.toNat
          if s.bufSel = 0#3 ∧ a < s.par.dbuf then (s.ibuf.read .ibuf s.draw a).setWidth 32
          else if s.bufSel = 1#3 ∧ a < s.outLen.toNat then (s.obuf.read .obuf s.draw a).setWidth 32
          else if s.bufSel = 2#3 ∧ a < s.par.saltMax then (s.salt.read .salt s.draw a).setWidth 32
          else if s.bufSel = 3#3 ∧ a < s.par.passMax then (s.pass.read .pass s.draw a).setWidth 32
          else if s.bufSel = 4#3 ∧ a < s.vecSize.toNat then s.iv.read .iv s.draw a
          else if s.bufSel = 5#3 ∧ a < s.par.keyMax then s.keyn.read .keyn s.draw a
          else if s.bufSel = 6#3 ∧ a < s.par.keyMax then s.keyx.read .keyx s.draw a
          else 0#32) }

/-- R74: what `WR(BUF_DATA, v)` stores, through reads of every element of every memory: the one element that takes the data, if
any does, and no other; `BUF_ADDR` moves in all cases and nothing else changes. -/
def Obligations.BufferPortWriteStoresOneElement : Prop :=
  ∀ (s : State) (v : Word), s.busy = false →
    ∃ t, s.wr (regIndex .bufData) v = t ∧
      t = { s with
              bufAddr := s.bufAddr + 1#32
              ibuf := t.ibuf, salt := t.salt, pass := t.pass, keyn := t.keyn, keyx := t.keyx } ∧
      ∀ (d k : Nat),
        t.ibuf.read .ibuf d k =
          (if s.bufSel = 0#3 ∧ s.bufAddr.toNat < s.par.dbuf ∧ k = s.bufAddr.toNat then v.setWidth 8
           else s.ibuf.read .ibuf d k) ∧
        t.salt.read .salt d k =
          (if s.bufSel = 2#3 ∧ s.bufAddr.toNat < s.par.saltMax ∧ k = s.bufAddr.toNat then v.setWidth 8
           else s.salt.read .salt d k) ∧
        t.pass.read .pass d k =
          (if s.bufSel = 3#3 ∧ s.bufAddr.toNat < s.par.passMax ∧ k = s.bufAddr.toNat then v.setWidth 8
           else s.pass.read .pass d k) ∧
        t.keyn.read .keyn d k =
          (if s.bufSel = 5#3 ∧ s.bufAddr.toNat < s.par.keyMax ∧ k = s.bufAddr.toNat then v
           else s.keyn.read .keyn d k) ∧
        t.keyx.read .keyx d k =
          (if s.bufSel = 6#3 ∧ s.bufAddr.toNat < s.par.keyMax ∧ k = s.bufAddr.toNat then v
           else s.keyx.read .keyx d k)

/-- R76: transactions while a command is in flight. A write is discarded in full and sets `WRBUSY`; a read changes nothing and, at
`STATUS`, finds `BUSY = 1`, `DONE = 0`, `ERR = 0` and the other bits as they are (in a state that keeps the invariant). What another read
returns is a free value (log entry 6), of which nothing is said. -/
def Obligations.BusyPortDiscardsWrites : Prop :=
  ∀ (s : State) (index : BitVec 6) (v : Word), Inv s → s.busy = true →
    s.wr index v = { s with wrbusy := true } ∧
    (∃ x, s.rd index = { s with rdata := some x }) ∧
    ∃ x, s.rd (regIndex .status) = { s with rdata := some x } ∧
      x.getLsbD 0 = true ∧ x.getLsbD 1 = false ∧ x.getLsbD 2 = false ∧ x.getLsbD 3 = s.wrbusy ∧
      x.getLsbD 4 = decide (s.vecSize ≠ 0#32) ∧ x.getLsbD 5 = decide (s.keyLen ≠ 0#32)

/-! ## Reset and the invariant -/

/-- R68: what reset leaves, for every value of the parameters: the reset column of R21 at every register that has one, no command in flight,
the interrupt output low, and every element of every memory unspecified: none is written, and each reads as a free value, drawn anew for each
step (U1, log entry 5). -/
def Obligations.ResetLeavesTheResetColumn : Prop :=
  ∀ p : Params, let s := State.resetWith p
    (∀ (r : Reg) (v : Word), resetColumn p r = some v → s.readReg r = v) ∧ s.busy = false ∧ s.irq = false ∧
    ∀ d k : Nat,
      (s.ibuf.written k = false ∧ s.ibuf.read .ibuf d k = Config.unwritten 8 d 0#3 k) ∧
      (s.obuf.written k = false ∧ s.obuf.read .obuf d k = Config.unwritten 8 d 1#3 k) ∧
      (s.salt.written k = false ∧ s.salt.read .salt d k = Config.unwritten 8 d 2#3 k) ∧
      (s.pass.written k = false ∧ s.pass.read .pass d k = Config.unwritten 8 d 3#3 k) ∧
      (s.iv.written k = false ∧ s.iv.read .iv d k = Config.unwritten 32 d 4#3 k) ∧
      (s.keyn.written k = false ∧ s.keyn.read .keyn d k = Config.unwritten 32 d 5#3 k) ∧
      (s.keyx.written k = false ∧ s.keyx.read .keyx d k = Config.unwritten 32 d 6#3 k)

/-- R250: from any state, `rst` asserted, held through any turns of host and sequencer, and released: none of their transactions and no commit is
performed, a command in flight is abandoned, and every register holds its reset value. That turns while `rst` is
asserted are ignored is the model's reading (log entry 8). -/
def Obligations.ResetAbandonsEverything : Prop :=
  ∀ (s : State) (held rest : List Turn), (∀ u ∈ held, isOrdinary u = true) →
    s.turns = .assertReset :: (held ++ .releaseReset :: rest) →
    Host.Core.run Sys2Proof.core (held.length + 2) s =
      .next { State.resetWith s.par with turns := rest, draw := s.draw + held.length + 2 }

/-- The invariant of Safety.lean holds at reset, for every value of the parameters (log entry 17 for its inferred parts). -/
def Obligations.ResetKeepsTheInvariant : Prop :=
  (∀ p : Params, Inv (State.resetWith p)) ∧ Inv State.reset

/-- Every step from a state that keeps the invariant leads to one that keeps it: memories in canonical form and within capacity, status as
R76 says while busy, no `E_IO` (R220), gates within capacity, and every element behind a gate written (U1); log entry 17 for the inferred
parts. -/
def Obligations.EveryStepKeepsTheInvariant : Prop :=
  ∀ s t : State, Inv s → step s = .next t → Inv t

/-- R9, R23, R29: no step changes a parameter, so `ID` and `SIG` never change. That the parameters stand in the state is the model's choice
(log entry 1). -/
def Obligations.ParametersNeverChange : Prop :=
  ∀ s t : State, step s = .next t →
    t.par = s.par ∧ t.readReg .id = 0x4D434231#32 ∧ t.readReg .sig = s.readReg .sig

/-! ## Free values -/

/-- U1: a command whose operands the host has written does not depend on what an unwritten element reads as: drawn anew, the free values
give the same result (log entry 5). -/
def Obligations.WrittenOperandsDetermineTheResult : Prop :=
  ∀ (i : Instr) (s t : State) (d : Nat), OperandsWritten i s → exec i s = .next t →
    exec i { s with draw := d } = .next { t with draw := d }

/-- U1: OBUF and IV are not affected by unwritten contents: what the port reads there does not depend on a free value (log entry 5). -/
def Obligations.GatedMemoriesShowNoFreeValue : Prop :=
  ∀ (s : State) (d : Nat), Inv s → s.bufSel = 1#3 ∨ s.bufSel = 4#3 →
    State.readReg { s with draw := d } .bufData = s.readReg .bufData

/-! ## Control commands -/

/-- R210: NOP changes nothing but what accept and commit themselves write; with `DONE_IE` set its commit raises the interrupt output. -/
def Obligations.NopResult : Prop :=
  ∀ s : State,
    exec .nop s = .next { s with busy := false, done := true, err := false, errcode := 0#3 } ∧
    (s.busy = false → ∃ t, exec .nop (s.wr (regIndex .cmd) 0x00000000#32) = .next t ∧
      t = { s with cmd := 0#32, busy := false, done := true, err := false, errcode := 0#3 } ∧ t.irq = s.doneIe)

/-- R211: CLEANUP from any state, its frame, that every element of IV, KEYN and KEYX reads 0 afterwards, that the cipher commands then
fail with code 1, and that doing it twice is doing it once. -/
def Obligations.CleanupResult : Prop :=
  ∀ s : State, ∃ t, exec .cleanup s = .next t ∧
    t = { s with
            vecSize := 0#32, ivalLo := 0#32, ivalHi := 0#32, keyLen := 0#32
            iv := t.iv, keyn := t.keyn, keyx := t.keyx
            busy := false, done := true, err := false, errcode := 0#3 } ∧
    t.ksValid = false ∧ t.keyValid = false ∧
    (∀ d k, t.iv.read .iv d k = 0#32 ∧ t.keyn.read .keyn d k = 0#32 ∧ t.keyx.read .keyx d k = 0#32) ∧
    (∀ i ∈ [Instr.xform, .encChunk, .decChunk], ∃ v, exec i t = .next v ∧ v.err = true ∧ v.errcode = 1#3) ∧
    exec .cleanup t = .next t

/-! ## CRC unit -/

/-- R113, R114: the two CRC commands, their frame, and their one failure. -/
def Obligations.CrcCommandsResult : Prop :=
  ∀ s : State,
    (s.inLen.toNat ≤ s.par.dbuf →
      exec .crcRun s =
        .next { s with
          crcRaw := crcUpdate s.crcInit (s.ibuf.readRange .ibuf s.draw 0 s.inLen.toNat)
          busy := false, done := true, err := false, errcode := 0#3 } ∧
      exec .crcCont s =
        .next { s with
          crcRaw := crcUpdate s.crcRaw (s.ibuf.readRange .ibuf s.draw 0 s.inLen.toNat)
          busy := false, done := true, err := false, errcode := 0#3 }) ∧
    (s.par.dbuf < s.inLen.toNat →
      exec .crcRun s = .next { s with busy := false, done := true, err := true, errcode := 5#3 } ∧
      exec .crcCont s = .next { s with busy := false, done := true, err := true, errcode := 5#3 })

/-- R112: the table-driven update equals the bit-serial one, eight one-bit steps for each byte, for every raw value and every sequence. -/
def Obligations.TableCrcIsBitSerialCrc : Prop :=
  let bit (c : Word) : Word := if c.getLsbD 0 then (c >>> 1) ^^^ 0xEDB88320#32 else c >>> 1
  ∀ (r : Word) (bytes : List Byte),
    crcUpdate r bytes = bytes.foldl (fun c b => bit^[8] (c ^^^ b.setWidth 32)) r

/-- R115: CRC_RUN over one piece and CRC_CONT over the next, whatever the host does between them that keeps `CRC_RAW`, give the CRC of the
two pieces joined. -/
def Obligations.CrcRunThenContIsOneCrc : Prop :=
  ∀ s t u v : State, exec .crcRun s = .next t → t.err = false → u.crcRaw = t.crcRaw →
    exec .crcCont u = .next v → v.err = false →
    v.crcRaw =
      crcUpdate s.crcInit
        (s.ibuf.readRange .ibuf s.draw 0 s.inLen.toNat ++ u.ibuf.readRange .ibuf u.draw 0 u.inLen.toNat)

/-- R118 (2): two sequences of equal length that differ in exactly one byte have different raw results from the same start. -/
def Obligations.CrcSeesOneChangedByte : Prop :=
  ∀ (r : Word) (before after : List Byte) (x y : Byte), x ≠ y →
    crcUpdate r (before ++ x :: after) ≠ crcUpdate r (before ++ y :: after)

/-! ## Number-theory unit -/

/-- R126, R125: MODPOW with a non-zero modulus, its frame, and its failure with modulus 0. -/
def Obligations.ModpowResult : Prop :=
  ∀ s : State,
    (s.mpMod ≠ 0#32 → ∃ r : Word,
      exec .modpow s =
        .next { s with mpRes := r, busy := false, done := true, err := false, errcode := 0#3 } ∧
      r.toNat =
        Nat.rec (motive := fun _ => Nat) 1
          (fun _ acc =>
            if s.mpMod.toNat < acc * s.mpBase.toNat then acc * s.mpBase.toNat % s.mpMod.toNat
            else acc * s.mpBase.toNat)
          s.mpExp.toNat) ∧
    (s.mpMod = 0#32 → exec .modpow s = .next { s with busy := false, done := true, err := true, errcode := 6#3 })

/-- R127, R128: the function's value is at most the modulus, congruent to the power, and equal to the mathematical modular power except that it
can be the modulus where that is 0. -/
def Obligations.ModpowAgreesWithTheModularPower : Prop :=
  ∀ base exp mod r : Word, modpowF base exp mod = some r →
    r.toNat ≤ mod.toNat ∧
    r.toNat % mod.toNat = base.toNat ^ exp.toNat % mod.toNat ∧
    (r.toNat = base.toNat ^ exp.toNat % mod.toNat ∨
      (r = mod ∧ base.toNat ^ exp.toNat % mod.toNat = 0))

/-- R129, R130: ISPRIME on an odd operand of at least 3 answers whether no odd divisor from 3 to the square root divides it, its frame, and its
failure on any other operand. -/
def Obligations.IsprimeResult : Prop :=
  ∀ s : State,
    let n := s.prNHi.toNat * 2 ^ 32 + s.prNLo.toNat
    (3 ≤ n → n % 2 = 1 → ∃ b : Bool,
      exec .isprime s =
        .next { s with prRes := b, busy := false, done := true, err := false, errcode := 0#3 } ∧
      (b = false ↔ ∃ d, d % 2 = 1 ∧ 3 ≤ d ∧ d * d ≤ n ∧ n % d = 0)) ∧
    (n < 3 ∨ n % 2 = 0 → exec .isprime s = .next { s with busy := false, done := true, err := true, errcode := 6#3 })

/-- R131: the function of ISPRIME finds exactly the primes. -/
def Obligations.IsprimeFunctionIsExact : Prop :=
  ∀ (n : Nat) (b : Bool), isPrimeF n = some b → (b = true ↔ Nat.Prime n)

/-! ## Key-schedule unit -/

/-- R10: `P_BITS` is the least `m` with `2^m >= P_BUFFER_SIZE`; R9: `P_DBUF` is `P_BUFFER_SIZE + 20`. -/
def Obligations.BitsIsTheCeilingLogarithm : Prop :=
  ∀ p : Params, (p.bufferSize ≤ 2 ^ p.bits ∧ ∀ m, p.bufferSize ≤ 2 ^ m → p.bits ≤ m) ∧ p.dbuf = p.bufferSize + 20

/-- R141: the checks of KS_DERIVE in their order, each with its code; a failed KS_DERIVE leaves everything else in place; where no check
applies the command goes on, and the size is at least 1. -/
def Obligations.KsDeriveChecksInOrder : Prop :=
  ∀ s : State,
    let sl := s.saltLen.toNat
    let pl := s.passLen.toNat
    let m := if s.mult.getLsbD 31 then s.par.defaultMult else s.mult.toNat
    let badSalt := sl = 0 ∨ s.par.saltMax < sl
    let badPass := pl = 0 ∨ s.par.passMax < pl
    let zeroByte := ∃ i < pl, s.pass.read .pass s.draw i = 0#8
    let fails (e : BitVec 3) := exec .ksDerive s = .next { s with busy := false, done := true, err := true, errcode := e }
    (badSalt → fails 6#3) ∧
    (¬ badSalt → badPass → fails 6#3) ∧
    (¬ badSalt → ¬ badPass → zeroByte → fails 6#3) ∧
    (¬ badSalt → ¬ badPass → ¬ zeroByte → m < s.par.minMult → fails 6#3) ∧
    (¬ badSalt → ¬ badPass → ¬ zeroByte → s.par.minMult ≤ m → s.par.vecMax < sl * pl * m → fails 5#3) ∧
    (s.par.wf = true → ¬ badSalt → ¬ badPass → ¬ zeroByte → s.par.minMult ≤ m → sl * pl * m ≤ s.par.vecMax →
      1 ≤ sl * pl * m ∧ ∃ t, exec .ksDerive s = .next t ∧ t.err = false)

/-- R140, R142 to R146: KS_DERIVE where the checks pass. `VEC_SIZE` is the product of the lengths and the multiplier; every word
of the schedule and `ival` are the source's formulas over natural numbers, reduced at the end; IV words at and beyond `VEC_SIZE` and all else
are kept. -/
def Obligations.KsDeriveComputesTheFormulas : Prop :=
  ∀ s : State, s.par.wf = true →
    let sl := s.saltLen.toNat
    let pl := s.passLen.toNat
    let m := if s.mult.getLsbD 31 then s.par.defaultMult else s.mult.toNat
    let salt (i : Nat) := (s.salt.read .salt s.draw i).toNat
    let pw (i : Nat) := (s.pass.read .pass s.draw i).toNat
    let isalt := ∑ i ∈ Finset.range sl, salt i ^ (i + 1) * s.par.bits
    let initial := ∑ i ∈ Finset.range pl, (pw i + isalt) * 2 ^ (i + 1)
    let psum := ∑ i ∈ Finset.range pl, pw i
    let iv (k : Nat) :=
      (initial + isalt + pw ((psum - pw (k % pl)) % pl) ^ ((psum + k) / pw (k % pl))) % 2 ^ 32
    1 ≤ sl → sl ≤ s.par.saltMax → 1 ≤ pl → pl ≤ s.par.passMax → (∀ i < pl, pw i ≠ 0) →
    s.par.minMult ≤ m → sl * pl * m ≤ s.par.vecMax →
    ∃ t, exec .ksDerive s = .next t ∧
      t = { s with
              iv := t.iv, vecSize := t.vecSize, ivalHi := t.ivalHi, ivalLo := t.ivalLo
              busy := false, done := true, err := false, errcode := 0#3 } ∧
      t.vecSize.toNat = sl * pl * m ∧
      (∀ k < sl * pl * m, (t.iv.read .iv s.draw k).toNat = iv k) ∧
      (∀ k, sl * pl * m ≤ k → t.iv.read .iv s.draw k = s.iv.read .iv s.draw k) ∧
      t.ivalHi.toNat * 2 ^ 32 + t.ivalLo.toNat = (initial + ∑ k ∈ Finset.range (sl * pl * m), iv k) % 2 ^ 64

/-- R147: KS_DERIVE run again with unchanged, written inputs gives the same schedule, whatever unwritten elements read as (log
entry 5). -/
def Obligations.KsDeriveAgainChangesNothing : Prop :=
  ∀ (s t : State) (d : Nat), OperandsWritten .ksDerive s → exec .ksDerive s = .next t → t.err = false →
    exec .ksDerive { t with draw := d } = .next { t with draw := d }

/-! ## Cipher kernel -/

/-- R160, R164: XFORM where the checks pass, by its byte-level form; all else is kept. That OBUF at and beyond `IN_LEN` reads as
before is the model's choice (log entry 12). -/
def Obligations.XformComputesTheByteForm : Prop :=
  ∀ s : State, s.vecSize ≠ 0#32 → s.inLen.toNat ≤ s.par.bufferSize →
    ∃ t, exec .xform s = .next t ∧
      t = { s with
              obuf := t.obuf, outLen := s.inLen
              busy := false, done := true, err := false, errcode := 0#3 } ∧
      (∀ i < s.inLen.toNat,
        t.obuf.read .obuf s.draw i =
          s.ivalLo.setWidth 8 - s.hCrc.setWidth 8
            - ((s.iv.read .iv s.draw (i % s.vecSize.toNat)).setWidth 8
                <<< ((s.chunkId.toNat * s.inLen.toNat + i) % 32))
            - s.ibuf.read .ibuf s.draw i) ∧
      (∀ a, s.inLen.toNat ≤ a → t.obuf.read .obuf s.draw a = s.obuf.read .obuf s.draw a)

/-- R160: the checks of XFORM in their order. -/
def Obligations.XformChecksInOrder : Prop :=
  ∀ s : State,
    (s.vecSize = 0#32 →
      exec .xform s =
        .next { s with busy := false, done := true, err := true, errcode := 1#3, outLen := 0#32 }) ∧
    (s.vecSize ≠ 0#32 → s.par.bufferSize < s.inLen.toNat →
      exec .xform s =
        .next { s with busy := false, done := true, err := true, errcode := 5#3, outLen := 0#32 })

/-- R162: XFORM on its own output, copied back into IBUF, with the same key schedule, `H_CRC`, `CHUNK_ID` and `IN_LEN` restores the
original bytes. -/
def Obligations.XformIsSelfInverse : Prop :=
  ∀ s t u v : State, exec .xform s = .next t → t.err = false →
    u.par = s.par → u.vecSize = s.vecSize → u.ivalLo = s.ivalLo → u.ivalHi = s.ivalHi →
    (∀ k < s.vecSize.toNat, u.iv.read .iv u.draw k = s.iv.read .iv s.draw k) →
    u.hCrc = s.hCrc → u.chunkId = s.chunkId → u.inLen = s.inLen →
    (∀ k < s.inLen.toNat, u.ibuf.read .ibuf u.draw k = t.obuf.read .obuf t.draw k) →
    exec .xform u = .next v →
    v.err = false ∧ v.outLen = s.inLen ∧
      ∀ k < s.inLen.toNat, v.obuf.read .obuf v.draw k = s.ibuf.read .ibuf s.draw k

/-- R163: only the low five bits of `id`, `size` and `i` reach the shift amount. -/
def Obligations.ShiftAmountNeedsFiveBits : Prop :=
  ∀ (id size : Word) (i : Nat),
    shiftAmount id size i = (id.toNat % 32 * (size.toNat % 32) + i % 32) % 32

/-- R169: for a chunk size that is a multiple of 32 all ids give the same ciphertext. -/
def Obligations.FullRowsHideTheChunkId : Prop :=
  ∀ (iv : Nat → Word) (vs : Nat) (ival : DWord) (crc id id' : Word) (block : List Byte),
    block.length % 32 = 0 → processF iv vs ival crc id block = processF iv vs ival crc id' block

/-! ## Chunk framing -/

/-- R181: parsing the bytes of a header gives back the signature and the five values. -/
def Obligations.HeaderParseInvertsHeaderBytes : Prop :=
  ∀ (p : Params) (t : Byte) (os es c sh : Word),
    (hdrBytes p t os es c sh).length = 20 ∧
    hdrParse (hdrBytes p t os es c sh) =
      { sig0 := p.sig0, sig1 := p.sig1, sig2 := p.sig2, type := t, osize := os, esize := es, crc := c, shift := sh }

/-- R182: HDR_PACK writes the 20 bytes of R180, its frame, and its failure on an invalid type byte. That OBUF from 20 on
reads as before is the model's choice (log entry 12). -/
def Obligations.HdrPackResult : Prop :=
  ∀ s : State,
    (s.hType = 0x10#8 ∨ s.hType = s.par.encBase64 →
      ∃ t, exec .hdrPack s = .next t ∧
        t = { s with
                obuf := t.obuf, outLen := 20#32
                busy := false, done := true, err := false, errcode := 0#3 } ∧
        t.obuf.readRange .obuf s.draw 0 20 =
          [s.par.sig0, s.par.sig1, s.par.sig2, s.hType,
            s.hOsize.extractLsb' 24 8, s.hOsize.extractLsb' 16 8, s.hOsize.extractLsb' 8 8, s.hOsize.extractLsb' 0 8,
            s.hEsize.extractLsb' 24 8, s.hEsize.extractLsb' 16 8, s.hEsize.extractLsb' 8 8, s.hEsize.extractLsb' 0 8,
            s.hCrc.extractLsb' 24 8, s.hCrc.extractLsb' 16 8, s.hCrc.extractLsb' 8 8, s.hCrc.extractLsb' 0 8,
            s.hShift.extractLsb' 24 8, s.hShift.extractLsb' 16 8, s.hShift.extractLsb' 8 8, s.hShift.extractLsb' 0 8] ∧
        ∀ a, 20 ≤ a → t.obuf.read .obuf s.draw a = s.obuf.read .obuf s.draw a) ∧
    (s.hType ≠ 0x10#8 → s.hType ≠ s.par.encBase64 →
      exec .hdrPack s =
        .next { s with busy := false, done := true, err := true, errcode := 6#3, outLen := 0#32 })

/-- R184: HDR_UNPACK reports the fields of a header with the right signature and a valid type, its frame, and its failures. -/
def Obligations.HdrUnpackResult : Prop :=
  ∀ s : State,
    let b (i : Nat) := s.ibuf.read .ibuf s.draw i
    let good := b 0 = s.par.sig0 ∧ b 1 = s.par.sig1 ∧ b 2 = s.par.sig2 ∧ (b 3 = 0x10#8 ∨ b 3 = s.par.encBase64)
    (20 ≤ s.inLen.toNat → good →
      exec .hdrUnpack s =
        .next { s with
          hType := b 3
          hOsize := b 4 ++ b 5 ++ b 6 ++ b 7
          hEsize := b 8 ++ b 9 ++ b 10 ++ b 11
          hCrc := b 12 ++ b 13 ++ b 14 ++ b 15
          hShift := b 16 ++ b 17 ++ b 18 ++ b 19
          busy := false, done := true, err := false, errcode := 0#3 }) ∧
    (s.inLen.toNat < 20 ∨ ¬ good →
      exec .hdrUnpack s = .next { s with busy := false, done := true, err := true, errcode := 3#3 })

/-- R188: the checks of ENC_CHUNK in their order, each with its code; the modulus is that of the entry `CHUNK_ID mod KEY_LEN` (R165). -/
def Obligations.EncChunkChecksInOrder : Prop :=
  ∀ s : State,
    let badType := s.hType ≠ 0x10#8 ∧ s.hType ≠ s.par.encBase64
    let badMode := s.simple = true ∧ s.hType ≠ 0x10#8
    let tooLong := s.par.bufferSize < s.inLen.toNat
    let n := s.keyn.read .keyn s.draw (s.chunkId.toNat % s.keyLen.toNat)
    let badKeys := s.keyLen ≠ 0#32 ∧ (s.par.keyMax < s.keyLen.toNat ∨ n = 0#32)
    let fails (e : BitVec 3) :=
      exec .encChunk s = .next { s with busy := false, done := true, err := true, errcode := e, outLen := 0#32 }
    (s.vecSize = 0#32 → fails 1#3) ∧
    (s.vecSize ≠ 0#32 → badType → fails 6#3) ∧
    (s.vecSize ≠ 0#32 → ¬ badType → badMode → fails 6#3) ∧
    (s.vecSize ≠ 0#32 → ¬ badType → ¬ badMode → tooLong → fails 5#3) ∧
    (s.vecSize ≠ 0#32 → ¬ badType → ¬ badMode → ¬ tooLong → badKeys → fails 6#3)

/-- R188, R166: ENC_CHUNK where the checks pass. OBUF`[0, 20 + IN_LEN)` is the header and the payload, the transform of the plaintext with, in Asymmetric
mode, the shift byte added, itself encrypted under the entry `CHUNK_ID mod KEY_LEN` (R165); the header registers take the header's values; all else is kept. That OBUF beyond reads as before
is the model's choice (log entry 12). -/
def Obligations.EncChunkResult : Prop :=
  ∀ s : State, s.par.wf = true → s.vecSize ≠ 0#32 →
    (s.hType = 0x10#8 ∨ s.hType = s.par.encBase64) → (s.simple = true → s.hType = 0x10#8) →
    s.inLen.toNat ≤ s.par.bufferSize →
    let n := s.keyn.read .keyn s.draw (s.chunkId.toNat % s.keyLen.toNat)
    let e := s.keyx.read .keyx s.draw (s.chunkId.toNat % s.keyLen.toNat)
    (s.keyLen ≠ 0#32 → s.keyLen.toNat ≤ s.par.keyMax ∧ n ≠ 0#32) →
    let m := s.ibuf.readRange .ibuf s.draw 0 s.inLen.toNat
    let crc := crcUpdate 0xFFFFFFFF#32 m ^^^ 0xFFFFFFFF#32
    let u := processF (s.iv.read .iv s.draw) s.vecSize.toNat (s.ivalHi ++ s.ivalLo) crc s.chunkId m
    let sb : Byte := if s.keyLen = 0#32 then 0#8 else (s.rand + crc).setWidth 8
    let es := if s.hType = 0x10#8 then 0#32 else s.hEsize
    ∃ t field, exec .encChunk s = .next t ∧
      (s.keyLen = 0#32 → field = 0#32) ∧
      (s.keyLen ≠ 0#32 → modpowF (sb.setWidth 32) e n = some field) ∧
      t = { s with
              obuf := t.obuf, outLen := s.inLen + 20#32
              hOsize := s.inLen, hEsize := es, hCrc := crc, hShift := field
              busy := false, done := true, err := false, errcode := 0#3 } ∧
      t.obuf.readRange .obuf s.draw 0 20 = hdrBytes s.par s.hType s.inLen es crc field ∧
      t.obuf.readRange .obuf s.draw 20 s.inLen.toNat = u.map (· + sb) ∧
      (∀ a, 20 + s.inLen.toNat ≤ a → t.obuf.read .obuf s.draw a = s.obuf.read .obuf s.draw a)

/-- R192: the checks of DEC_CHUNK in their order up to the comparison of the CRCs, each with its code; the modulus is that of the
entry `CHUNK_ID mod KEY_LEN` (R165). -/
def Obligations.DecChunkChecksInOrder : Prop :=
  ∀ s : State,
    let h := hdrParse (s.ibuf.readRange .ibuf s.draw 0 20)
    let tooLong := s.par.dbuf < s.inLen.toNat
    let badHeader :=
      s.inLen.toNat < 20 ∨ h.sig0 ≠ s.par.sig0 ∨ h.sig1 ≠ s.par.sig1 ∨ h.sig2 ≠ s.par.sig2 ∨
        (h.type ≠ 0x10#8 ∧ h.type ≠ s.par.encBase64)
    let badMode := s.simple = true ∧ h.type ≠ 0x10#8
    let bigText := s.par.bufferSize < h.osize.toNat
    let shortPayload := s.inLen.toNat - 20 < h.osize.toNat
    let noKeys := h.shift ≠ 0#32 ∧ s.keyLen = 0#32
    let n := s.keyn.read .keyn s.draw (s.chunkId.toNat % s.keyLen.toNat)
    let badKeys := h.shift ≠ 0#32 ∧ (s.par.keyMax < s.keyLen.toNat ∨ n = 0#32)
    let fails (e : BitVec 3) :=
      exec .decChunk s = .next { s with busy := false, done := true, err := true, errcode := e, outLen := 0#32 }
    (s.vecSize = 0#32 → fails 1#3) ∧
    (s.vecSize ≠ 0#32 → tooLong → fails 5#3) ∧
    (s.vecSize ≠ 0#32 → ¬ tooLong → badHeader → fails 3#3) ∧
    (s.vecSize ≠ 0#32 → ¬ tooLong → ¬ badHeader → badMode → fails 6#3) ∧
    (s.vecSize ≠ 0#32 → ¬ tooLong → ¬ badHeader → ¬ badMode → bigText → fails 5#3) ∧
    (s.vecSize ≠ 0#32 → ¬ tooLong → ¬ badHeader → ¬ badMode → ¬ bigText → shortPayload → fails 3#3) ∧
    (s.vecSize ≠ 0#32 → ¬ tooLong → ¬ badHeader → ¬ badMode → ¬ bigText → ¬ shortPayload → noKeys → fails 1#3) ∧
    (s.vecSize ≠ 0#32 → ¬ tooLong → ¬ badHeader → ¬ badMode → ¬ bigText → ¬ shortPayload → ¬ noKeys → badKeys →
      fails 6#3)

/-- R192, R167, R168: DEC_CHUNK past those checks. The payload, less the shift byte that a non-zero shift field decrypts to under the
entry `CHUNK_ID mod KEY_LEN` (R165), goes through the transform; the
text is delivered if SimpleMode is on or its CRC-32 is the header's, and otherwise the command fails with code 4. That OBUF at and beyond the text's
length reads as before is the model's choice (log entry 12). -/
def Obligations.DecChunkResult : Prop :=
  ∀ s : State,
    let h := hdrParse (s.ibuf.readRange .ibuf s.draw 0 20)
    let n := s.keyn.read .keyn s.draw (s.chunkId.toNat % s.keyLen.toNat)
    let e := s.keyx.read .keyx s.draw (s.chunkId.toNat % s.keyLen.toNat)
    s.vecSize ≠ 0#32 → s.inLen.toNat ≤ s.par.dbuf → 20 ≤ s.inLen.toNat →
    h.sig0 = s.par.sig0 → h.sig1 = s.par.sig1 → h.sig2 = s.par.sig2 →
    (h.type = 0x10#8 ∨ h.type = s.par.encBase64) → (s.simple = true → h.type = 0x10#8) →
    h.osize.toNat ≤ s.par.bufferSize → h.osize.toNat ≤ s.inLen.toNat - 20 →
    ∀ sb : Byte,
      (h.shift = 0#32 ∧ sb = 0#8 ∨
        h.shift ≠ 0#32 ∧ s.keyLen ≠ 0#32 ∧ s.keyLen.toNat ≤ s.par.keyMax ∧
          ∃ r, modpowF h.shift e n = some r ∧ sb = r.setWidth 8) →
      let p := s.ibuf.readRange .ibuf s.draw 20 h.osize.toNat
      let m := processF (s.iv.read .iv s.draw) s.vecSize.toNat (s.ivalHi ++ s.ivalLo) h.crc s.chunkId (p.map (· - sb))
      (s.simple = true ∨ crcUpdate 0xFFFFFFFF#32 m ^^^ 0xFFFFFFFF#32 = h.crc →
        ∃ t, exec .decChunk s = .next t ∧
          t = { s with
                  obuf := t.obuf, outLen := h.osize
                  hType := h.type, hOsize := h.osize, hEsize := h.esize, hCrc := h.crc, hShift := h.shift
                  busy := false, done := true, err := false, errcode := 0#3 } ∧
          t.obuf.readRange .obuf s.draw 0 h.osize.toNat = m ∧
          ∀ a, h.osize.toNat ≤ a → t.obuf.read .obuf s.draw a = s.obuf.read .obuf s.draw a) ∧
      (s.simple = false → crcUpdate 0xFFFFFFFF#32 m ^^^ 0xFFFFFFFF#32 ≠ h.crc →
        exec .decChunk s =
          .next { s with busy := false, done := true, err := true, errcode := 4#3, outLen := 0#32 })

/-- What R195 and R196 take as given of the two sides, `s` before ENC_CHUNK, `t` after it and `u` before DEC_CHUNK: the same machine, key schedule
and `CHUNK_ID`, no SimpleMode with Base64 (R186), and either no key material on both sides or key material whose selected entries,
`CHUNK_ID mod KEY_LEN` (R165), carry the shift byte used. -/
def Sys2Proof.Machine.MatchedSides (s t u : State) : Prop :=
  u.par = s.par ∧ (u.simple = true → s.hType = 0x10#8) ∧ u.chunkId = s.chunkId ∧
  u.vecSize = s.vecSize ∧ u.ivalLo = s.ivalLo ∧ u.ivalHi = s.ivalHi ∧
  (∀ k < s.vecSize.toNat, u.iv.read .iv u.draw k = s.iv.read .iv s.draw k) ∧
  ((s.keyLen = 0#32 ∧ u.keyLen = 0#32) ∨
    (s.keyLen ≠ 0#32 ∧ u.keyLen ≠ 0#32 ∧ u.keyLen.toNat ≤ u.par.keyMax ∧
      let n := s.keyn.read .keyn s.draw (s.chunkId.toNat % s.keyLen.toNat)
      let d := u.keyx.read .keyx u.draw (u.chunkId.toNat % u.keyLen.toNat)
      let sb : Byte := (s.rand + t.hCrc).setWidth 8
      u.keyn.read .keyn u.draw (u.chunkId.toNat % u.keyLen.toNat) = n ∧
      (sb ≠ 0#8 → t.hShift ≠ 0#32) ∧
      (t.hShift ≠ 0#32 → ∃ r, modpowF t.hShift d n = some r ∧ r.setWidth 8 = sb)))

/-- R195: a chunk that ENC_CHUNK made decrypts to the plaintext, in both encodings and both operating modes. -/
def Obligations.ChunkRoundTrip : Prop :=
  ∀ s t u : State, s.par.wf = true → exec .encChunk s = .next t → t.err = false → MatchedSides s t u →
    u.inLen = t.outLen →
    (∀ k < t.outLen.toNat, u.ibuf.read .ibuf u.draw k = t.obuf.read .obuf t.draw k) →
    ∃ v, exec .decChunk u = .next v ∧ v.err = false ∧ v.errcode = 0#3 ∧ v.outLen = s.inLen ∧
      ∀ k < s.inLen.toNat, v.obuf.read .obuf v.draw k = s.ibuf.read .ibuf s.draw k

/-- R196: with exactly one payload byte changed and SimpleMode off, DEC_CHUNK fails with `E_INTEGRITY` and nothing can be read. -/
def Obligations.ChangedPayloadByteIsDetected : Prop :=
  ∀ (s t u : State) (j : Nat), s.par.wf = true → exec .encChunk s = .next t → t.err = false → MatchedSides s t u →
    u.simple = false → u.inLen = t.outLen → 20 ≤ j → j < t.outLen.toNat →
    (∀ k < t.outLen.toNat, k ≠ j → u.ibuf.read .ibuf u.draw k = t.obuf.read .obuf t.draw k) →
    u.ibuf.read .ibuf u.draw j ≠ t.obuf.read .obuf t.draw j →
    ∃ v, exec .decChunk u = .next v ∧ v.err = true ∧ v.errcode = 4#3 ∧ v.outLen = 0#32
end

