-- ==== Sys2Proof/Laws/Memory.lean ====
section
/-! SUPPORT. The laws of the memories: what each write leaves at every index, and that every operation keeps the
canonical form. -/

namespace Sys2Proof.Machine

/-! ### Lookup in a list of cells -/

theorem lookupCell_insertCell {w : Nat} (i : Nat) (v : BitVec w) (k : Nat) (l : List (Nat × BitVec w)) :
    lookupCell k (insertCell i v l) = if i = k then some v else lookupCell k l := by
  induction l with
  | nil => simp [insertCell, lookupCell]
  | cons c rest ih =>
    obtain ⟨j, u⟩ := c
    simp only [insertCell]
    split
    · rename_i hji
      simp only [lookupCell, ih]
      by_cases hjk : j = k
      · simp [hjk, show i ≠ k by omega]
      · simp [hjk]
    · split
      · rename_i hji
        subst hji
        by_cases hjk : j = k <;> simp [lookupCell, hjk]
      · by_cases hik : i = k <;> simp [lookupCell, hik]

theorem lookupCell_filter_index {w : Nat} (p : Nat → Bool) (k : Nat) (l : List (Nat × BitVec w)) :
    lookupCell k (l.filter fun c => p c.1) = if p k then lookupCell k l else none := by
  induction l with
  | nil => simp [lookupCell]
  | cons c rest ih =>
    obtain ⟨j, u⟩ := c
    by_cases hpj : p j
    · by_cases hjk : j = k
      · subst hjk; simp [lookupCell, hpj]
      · simp [lookupCell, hpj, hjk, ih]
    · by_cases hjk : j = k
      · subst hjk; simp [hpj, ih]
      · simp [lookupCell, hpj, hjk, ih]

theorem lookupCell_append {w : Nat} (k : Nat) (l r : List (Nat × BitVec w)) :
    lookupCell k (l ++ r) = (lookupCell k l).or (lookupCell k r) := by
  induction l with
  | nil => simp [lookupCell]
  | cons c rest ih =>
    obtain ⟨j, u⟩ := c
    by_cases hjk : j = k <;> simp [lookupCell, hjk, ih]

/-- A value filter can only take a cell away, when the cells carry each index once: stated for numbered cells. -/
theorem lookupCell_cellsFrom_filter {w : Nat} (p : BitVec w → Bool) (i k : Nat) (vs : List (BitVec w)) :
    lookupCell k ((cellsFrom i vs).filter fun c => p c.2)
      = if i ≤ k then (vs[k - i]?).filter p else none := by
  induction vs generalizing i with
  | nil => simp [cellsFrom, lookupCell]
  | cons v vs ih =>
    simp only [cellsFrom, List.filter_cons]
    by_cases hik : i = k
    · subst hik
      by_cases hp : p v
      · simp [hp, lookupCell, Option.filter]
      · simp [hp, ih, Option.filter]
    · by_cases hle : i ≤ k
      · have h1 : k - i = (k - (i + 1)) + 1 := by omega
        by_cases hp : p v
        · simp [hp, lookupCell, hik, ih, hle, show i + 1 ≤ k by omega, h1]
        · simp [hp, ih, hle, show i + 1 ≤ k by omega, h1]
      · by_cases hp : p v
        · simp [hp, lookupCell, hik, ih, hle, show ¬ i + 1 ≤ k by omega]
        · simp [hp, ih, hle, show ¬ i + 1 ≤ k by omega]

/-! ### What a read finds -/

@[simp] theorem Memory.unlisted_of_zeroed {w : Nat} {m : Memory w} (h : m.zeroed = true) (b : Buf) (draw i : Nat) :
    m.unlisted b draw i = 0#w := by simp [Memory.unlisted, h]

@[simp] theorem Memory.unlisted_cells {w : Nat} (m : Memory w) (l : List (Nat × BitVec w)) (b : Buf)
    (draw i : Nat) : Memory.unlisted { m with cells := l } b draw i = m.unlisted b draw i := rfl

/-- A read of the element just written gives the value written; any other element reads as before. -/
theorem Memory.read_write {w : Nat} (m : Memory w) (b : Buf) (draw i k : Nat) (v : BitVec w) :
    (m.write i v).read b draw k = if i = k then v else m.read b draw k := by
  by_cases hl : m.lists v
  · simp only [Memory.read, Memory.write, hl, if_true, lookupCell_insertCell, Memory.unlisted_cells]
    by_cases hik : i = k <;> simp [hik]
  · have hz : m.zeroed = true ∧ v = 0#w := by simpa [Memory.lists] using hl
    have hf := lookupCell_filter_index (fun j => j != i) k m.cells
    simp only [Memory.read, Memory.write, hl, Memory.unlisted_cells, Memory.unlisted_of_zeroed hz.1, Bool.false_eq_true,
      if_false, hf]
    by_cases hik : i = k
    · simp [hik, hz.2]
    · simp [hik, show k ≠ i from fun h => hik h.symm]

theorem Memory.read_writeRange {w : Nat} (m : Memory w) (b : Buf) (draw i k : Nat) (vs : List (BitVec w)) :
    (m.writeRange i vs).read b draw k
      = if i ≤ k then (vs[k - i]?).getD (m.read b draw k) else m.read b draw k := by
  have h1 := lookupCell_filter_index (fun j => decide (j < i)) k m.cells
  have h2 := lookupCell_cellsFrom_filter m.lists i k vs
  have h3 := lookupCell_filter_index (fun j => decide (i + vs.length ≤ j)) k m.cells
  simp only [Memory.read, Memory.writeRange, lookupCell_append, h1, h2, h3, Memory.unlisted_cells]
  by_cases hik : i ≤ k
  · by_cases hk : k < i + vs.length
    · have hlt : k - i < vs.length := by omega
      by_cases hl : m.lists vs[k - i]
      · simp [hik, show ¬ k < i by omega, hlt, hl, Option.filter]
      · have hz : m.zeroed = true ∧ vs[k - i] = 0#w := by simpa [Memory.lists] using hl
        simp [hik, show ¬ k < i by omega, hlt, Option.filter, show ¬ i + vs.length ≤ k by omega,
          Memory.unlisted_of_zeroed hz.1, hz.2, show m.lists 0#w = false by simp [Memory.lists, hz.1]]
    · simp [hik, show ¬ k < i by omega, show vs.length ≤ k - i by omega, show i + vs.length ≤ k by omega]
  · simp [hik, show k < i by omega, show ¬ i + vs.length ≤ k by omega]

/-- An element inside a written range reads as the value written there. -/
theorem Memory.read_writeRange_inside {w : Nat} (m : Memory w) (b : Buf) (draw i k : Nat) (vs : List (BitVec w))
    (hi : i ≤ k) (hk : k - i < vs.length) : (m.writeRange i vs).read b draw k = vs[k - i] := by
  simp [Memory.read_writeRange, hi, hk]

/-- An element outside a written range reads as before. -/
theorem Memory.read_writeRange_outside {w : Nat} (m : Memory w) (b : Buf) (draw i k : Nat) (vs : List (BitVec w))
    (h : k < i ∨ i + vs.length ≤ k) : (m.writeRange i vs).read b draw k = m.read b draw k := by
  rw [Memory.read_writeRange]
  split
  · rw [List.getElem?_eq_none (by omega)]; rfl
  · rfl

@[simp] theorem Memory.read_zeros {w : Nat} (b : Buf) (draw k : Nat) : (Memory.zeros w).read b draw k = 0#w := by
  simp [Memory.read, Memory.zeros, lookupCell, Memory.unlisted]

@[simp] theorem Memory.readRange_length {w : Nat} (m : Memory w) (b : Buf) (draw i n : Nat) :
    (m.readRange b draw i n).length = n := by simp [Memory.readRange]

theorem Memory.readRange_getElem {w : Nat} (m : Memory w) (b : Buf) (draw i n k : Nat)
    (h : k < (m.readRange b draw i n).length) : (m.readRange b draw i n)[k] = m.read b draw (i + k) := by
  simp [Memory.readRange]

theorem Memory.readRange_getElem? {w : Nat} (m : Memory w) (b : Buf) (draw i n k : Nat) :
    (m.readRange b draw i n)[k]? = if k < n then some (m.read b draw (i + k)) else none := by
  by_cases h : k < n <;> simp [Memory.readRange, h]

/-- A range just written reads back as the sequence written. -/
theorem Memory.readRange_writeRange {w : Nat} (m : Memory w) (b : Buf) (draw i : Nat) (vs : List (BitVec w)) :
    (m.writeRange i vs).readRange b draw i vs.length = vs := by
  apply List.ext_getElem
  · simp
  · intro k h1 h2
    rw [Memory.readRange_getElem, Memory.read_writeRange_inside _ _ _ _ _ _ (by omega) (by omega)]
    simp

/-- The first part of a range is the range of the first elements. -/
theorem Memory.readRange_take {w : Nat} (m : Memory w) (b : Buf) (draw i n k : Nat) (h : k ≤ n) :
    (m.readRange b draw i n).take k = m.readRange b draw i k := by
  apply List.ext_getElem
  · simp [h]
  · intro j h1 h2
    simp [Memory.readRange_getElem]

/-- A range splits into the range of its first elements and the range of the rest. -/
theorem Memory.readRange_drop {w : Nat} (m : Memory w) (b : Buf) (draw i n k : Nat) :
    (m.readRange b draw i n).drop k = m.readRange b draw (i + k) (n - k) := by
  apply List.ext_getElem
  · simp
  · intro j h1 h2
    simp [Memory.readRange_getElem, Nat.add_assoc]

/-! ### The canonical form -/

theorem risingFrom_mono {w : Nat} {i j : Nat} (h : j ≤ i) {l : List (Nat × BitVec w)}
    (hr : risingFrom i l = true) : risingFrom j l = true := by
  cases l with
  | nil => rfl
  | cons c rest => simp only [risingFrom, Bool.and_eq_true, decide_eq_true_eq] at *; exact ⟨by omega, hr.2⟩

theorem risingFrom_le {w : Nat} {i : Nat} {l : List (Nat × BitVec w)} (hr : risingFrom i l = true) :
    ∀ c ∈ l, i ≤ c.1 := by
  induction l generalizing i with
  | nil => simp
  | cons c rest ih =>
    simp only [risingFrom, Bool.and_eq_true, decide_eq_true_eq] at hr
    intro d hd
    rcases List.mem_cons.1 hd with h | h
    · subst h; exact hr.1
    · have := ih hr.2 d h; omega

theorem risingFrom_filter {w : Nat} {i : Nat} (p : Nat × BitVec w → Bool) {l : List (Nat × BitVec w)}
    (hr : risingFrom i l = true) : risingFrom i (l.filter p) = true := by
  induction l generalizing i with
  | nil => rfl
  | cons c rest ih =>
    simp only [risingFrom, Bool.and_eq_true, decide_eq_true_eq] at hr
    have h := ih hr.2
    by_cases hp : p c
    · simp [hp, risingFrom, hr.1, h]
    · simp only [hp, List.filter_cons]; exact risingFrom_mono (by omega) h

theorem risingFrom_insertCell {w : Nat} {i : Nat} (k : Nat) (v : BitVec w) (hik : i ≤ k)
    {l : List (Nat × BitVec w)} (hr : risingFrom i l = true) : risingFrom i (insertCell k v l) = true := by
  induction l generalizing i with
  | nil => simp [insertCell, risingFrom, hik]
  | cons c rest ih =>
    obtain ⟨j, u⟩ := c
    simp only [risingFrom, Bool.and_eq_true, decide_eq_true_eq] at hr
    simp only [insertCell]
    split
    · simp only [risingFrom, Bool.and_eq_true, decide_eq_true_eq]; exact ⟨hr.1, ih (by omega) hr.2⟩
    · split
      · rename_i hjk; subst hjk; simp [risingFrom, hr.1, hr.2]
      · simp only [risingFrom, Bool.and_eq_true, decide_eq_true_eq]; exact ⟨hik, by omega, hr.2⟩

theorem mem_insertCell {w : Nat} {k : Nat} {v : BitVec w} {l : List (Nat × BitVec w)} {c : Nat × BitVec w}
    (h : c ∈ insertCell k v l) : c = (k, v) ∨ c ∈ l := by
  induction l with
  | nil => simpa [insertCell] using h
  | cons d rest ih =>
    obtain ⟨j, u⟩ := d
    simp only [insertCell] at h
    split at h
    · rcases List.mem_cons.1 h with h | h
      · simp [h]
      · rcases ih h with h | h <;> simp [h]
    · split at h <;> simp only [List.mem_cons] at * <;> tauto

theorem risingFrom_append {w : Nat} {i n : Nat} {l r : List (Nat × BitVec w)} (hl : risingFrom i l = true)
    (hb : ∀ c ∈ l, c.1 < n) (hin : i ≤ n) (hr : risingFrom n r = true) : risingFrom i (l ++ r) = true := by
  induction l generalizing i with
  | nil => exact risingFrom_mono hin hr
  | cons c rest ih =>
    simp only [risingFrom, List.cons_append, Bool.and_eq_true, decide_eq_true_eq] at *
    have hc := hb c (by simp)
    exact ⟨hl.1, ih hl.2 (fun d hd => hb d (by simp [hd])) (by omega)⟩

theorem risingFrom_cellsFrom {w : Nat} (i : Nat) (vs : List (BitVec w)) : risingFrom i (cellsFrom i vs) = true := by
  induction vs generalizing i with
  | nil => rfl
  | cons v vs ih => simp [cellsFrom, risingFrom, ih]

theorem mem_cellsFrom {w : Nat} {i : Nat} {vs : List (BitVec w)} {c : Nat × BitVec w} (h : c ∈ cellsFrom i vs) :
    i ≤ c.1 ∧ c.1 < i + vs.length := by
  induction vs generalizing i with
  | nil => simp [cellsFrom] at h
  | cons v vs ih =>
    rcases List.mem_cons.1 h with h | h
    · subst h; simp
    · have := ih h; simp only [List.length_cons]; omega

theorem risingFrom_filter_above {w : Nat} {i n : Nat} {l : List (Nat × BitVec w)} (hr : risingFrom i l = true) :
    risingFrom n (l.filter fun c => decide (n ≤ c.1)) = true := by
  induction l generalizing i with
  | nil => rfl
  | cons c rest ih =>
    simp only [risingFrom, Bool.and_eq_true, decide_eq_true_eq] at hr
    by_cases hc : n ≤ c.1
    · have := risingFrom_filter (fun c => decide (n ≤ c.1)) hr.2
      simp only [hc, decide_true, List.filter_cons, if_true, risingFrom, Bool.and_eq_true]
      exact ⟨trivial, this⟩
    · simp only [hc, decide_false, List.filter_cons]; exact ih hr.2

theorem Memory.wf_iff {w : Nat} (m : Memory w) (cap : Nat) :
    m.wf cap = true ↔ risingFrom 0 m.cells = true ∧ ∀ c ∈ m.cells, c.1 < cap ∧ m.lists c.2 = true := by
  simp [Memory.wf]

/-- A memory nothing has written is in canonical form. -/
@[simp] theorem Memory.unknown_wf (w cap : Nat) : (Memory.unknown w).wf cap = true := by
  simp [Memory.wf, Memory.unknown, risingFrom]

/-- A memory overwritten with zeros is in canonical form. -/
@[simp] theorem Memory.zeros_wf (w cap : Nat) : (Memory.zeros w).wf cap = true := by
  simp [Memory.wf, Memory.zeros, risingFrom]

@[simp] theorem Memory.lists_of_eq_zeroed {w : Nat} (m : Memory w) (l : List (Nat × BitVec w)) (v : BitVec w) :
    Memory.lists { m with cells := l } v = m.lists v := rfl

/-- A write within the capacity keeps the canonical form. -/
theorem Memory.write_wf {w : Nat} {m : Memory w} {cap : Nat} (h : m.wf cap = true) {i : Nat} (hi : i < cap)
    (v : BitVec w) : (m.write i v).wf cap = true := by
  rw [Memory.wf_iff] at *
  by_cases hl : m.lists v
  · simp only [Memory.write, hl, if_true, Memory.lists_of_eq_zeroed]
    refine ⟨risingFrom_insertCell i v (Nat.zero_le _) h.1, fun c hc => ?_⟩
    rcases mem_insertCell hc with hc | hc
    · subst hc; exact ⟨hi, hl⟩
    · exact h.2 c hc
  · simp only [Memory.write, hl, Memory.lists_of_eq_zeroed]
    exact ⟨risingFrom_filter _ h.1, fun c hc => h.2 c (List.mem_of_mem_filter hc)⟩

/-- A range write within the capacity keeps the canonical form. -/
theorem Memory.writeRange_wf {w : Nat} {m : Memory w} {cap : Nat} (h : m.wf cap = true) {i : Nat}
    {vs : List (BitVec w)} (hi : i + vs.length ≤ cap) : (m.writeRange i vs).wf cap = true := by
  rw [Memory.wf_iff] at *
  simp only [Memory.writeRange, Memory.lists_of_eq_zeroed]
  constructor
  · refine risingFrom_append (n := i) (risingFrom_filter _ h.1) (fun c hc => ?_) (Nat.zero_le _) ?_
    · simpa using (List.mem_filter.1 hc).2
    · refine risingFrom_append (n := i + vs.length) (risingFrom_filter _ (risingFrom_cellsFrom i vs))
        (fun c hc => (mem_cellsFrom (List.mem_of_mem_filter hc)).2) (Nat.le_add_right _ _)
        (risingFrom_filter_above h.1)
  · intro c hc
    rcases List.mem_append.1 hc with hc | hc
    · exact h.2 c (List.mem_of_mem_filter hc)
    · rcases List.mem_append.1 hc with hc | hc
      · have hm := List.mem_filter.1 hc
        exact ⟨by have := (mem_cellsFrom hm.1).2; omega, hm.2⟩
      · exact h.2 c (List.mem_of_mem_filter hc)

/-- A sequence stored twice is stored once. -/
theorem Memory.writeRange_writeRange {w : Nat} (m : Memory w) (vs : List (BitVec w)) :
    (m.writeRange 0 vs).writeRange 0 vs = m.writeRange 0 vs := by
  have h0 : ∀ (l : List (Nat × BitVec w)), l.filter (fun c => decide (c.1 < 0)) = [] := by simp
  have h1 : ((cellsFrom 0 vs).filter fun c => m.lists c.2).filter (fun c => decide (0 + vs.length ≤ c.1)) = [] := by
    apply List.filter_eq_nil_iff.2
    intro c hc
    have := (mem_cellsFrom (List.mem_of_mem_filter hc)).2
    simp; omega
  simp only [Memory.writeRange, h0, List.nil_append, List.filter_append, h1, List.filter_filter, Bool.and_self,
    Memory.lists_of_eq_zeroed]

end Sys2Proof.Machine
end

