-- ==== Sys2Proof/Laws/State.lean ====
section
/-! SUPPORT. For each update of the state, one lemma per field: what the field is afterwards. -/

namespace Sys2Proof.Machine

variable (s : State)

/-! ### `State.accept` -/

@[simp] theorem State.accept_par (w : Word) : (s.accept w).par = s.par := rfl
@[simp] theorem State.accept_cmd (w : Word) : (s.accept w).cmd = w := rfl
@[simp] theorem State.accept_busy (w : Word) : (s.accept w).busy = true := rfl
@[simp] theorem State.accept_done (w : Word) : (s.accept w).done = false := rfl
@[simp] theorem State.accept_err (w : Word) : (s.accept w).err = false := rfl
@[simp] theorem State.accept_wrbusy (w : Word) : (s.accept w).wrbusy = s.wrbusy := rfl
@[simp] theorem State.accept_errcode (w : Word) : (s.accept w).errcode = 0#3 := rfl
@[simp] theorem State.accept_simple (w : Word) : (s.accept w).simple = s.simple := rfl
@[simp] theorem State.accept_doneIe (w : Word) : (s.accept w).doneIe = s.doneIe := rfl
@[simp] theorem State.accept_errIe (w : Word) : (s.accept w).errIe = s.errIe := rfl
@[simp] theorem State.accept_bufSel (w : Word) : (s.accept w).bufSel = s.bufSel := rfl
@[simp] theorem State.accept_bufAddr (w : Word) : (s.accept w).bufAddr = s.bufAddr := rfl
@[simp] theorem State.accept_inLen (w : Word) : (s.accept w).inLen = s.inLen := rfl
@[simp] theorem State.accept_outLen (w : Word) : (s.accept w).outLen = s.outLen := rfl
@[simp] theorem State.accept_saltLen (w : Word) : (s.accept w).saltLen = s.saltLen := rfl
@[simp] theorem State.accept_passLen (w : Word) : (s.accept w).passLen = s.passLen := rfl
@[simp] theorem State.accept_mult (w : Word) : (s.accept w).mult = s.mult := rfl
@[simp] theorem State.accept_vecSize (w : Word) : (s.accept w).vecSize = s.vecSize := rfl
@[simp] theorem State.accept_ivalLo (w : Word) : (s.accept w).ivalLo = s.ivalLo := rfl
@[simp] theorem State.accept_ivalHi (w : Word) : (s.accept w).ivalHi = s.ivalHi := rfl
@[simp] theorem State.accept_keyLen (w : Word) : (s.accept w).keyLen = s.keyLen := rfl
@[simp] theorem State.accept_chunkId (w : Word) : (s.accept w).chunkId = s.chunkId := rfl
@[simp] theorem State.accept_rand (w : Word) : (s.accept w).rand = s.rand := rfl
@[simp] theorem State.accept_crcInit (w : Word) : (s.accept w).crcInit = s.crcInit := rfl
@[simp] theorem State.accept_crcRaw (w : Word) : (s.accept w).crcRaw = s.crcRaw := rfl
@[simp] theorem State.accept_hType (w : Word) : (s.accept w).hType = s.hType := rfl
@[simp] theorem State.accept_hOsize (w : Word) : (s.accept w).hOsize = s.hOsize := rfl
@[simp] theorem State.accept_hEsize (w : Word) : (s.accept w).hEsize = s.hEsize := rfl
@[simp] theorem State.accept_hCrc (w : Word) : (s.accept w).hCrc = s.hCrc := rfl
@[simp] theorem State.accept_hShift (w : Word) : (s.accept w).hShift = s.hShift := rfl
@[simp] theorem State.accept_mpBase (w : Word) : (s.accept w).mpBase = s.mpBase := rfl
@[simp] theorem State.accept_mpExp (w : Word) : (s.accept w).mpExp = s.mpExp := rfl
@[simp] theorem State.accept_mpMod (w : Word) : (s.accept w).mpMod = s.mpMod := rfl
@[simp] theorem State.accept_mpRes (w : Word) : (s.accept w).mpRes = s.mpRes := rfl
@[simp] theorem State.accept_prNLo (w : Word) : (s.accept w).prNLo = s.prNLo := rfl
@[simp] theorem State.accept_prNHi (w : Word) : (s.accept w).prNHi = s.prNHi := rfl
@[simp] theorem State.accept_prRes (w : Word) : (s.accept w).prRes = s.prRes := rfl
@[simp] theorem State.accept_ibuf (w : Word) : (s.accept w).ibuf = s.ibuf := rfl
@[simp] theorem State.accept_obuf (w : Word) : (s.accept w).obuf = s.obuf := rfl
@[simp] theorem State.accept_salt (w : Word) : (s.accept w).salt = s.salt := rfl
@[simp] theorem State.accept_pass (w : Word) : (s.accept w).pass = s.pass := rfl
@[simp] theorem State.accept_iv (w : Word) : (s.accept w).iv = s.iv := rfl
@[simp] theorem State.accept_keyn (w : Word) : (s.accept w).keyn = s.keyn := rfl
@[simp] theorem State.accept_keyx (w : Word) : (s.accept w).keyx = s.keyx := rfl
@[simp] theorem State.accept_rst (w : Word) : (s.accept w).rst = s.rst := rfl
@[simp] theorem State.accept_rdata (w : Word) : (s.accept w).rdata = s.rdata := rfl
@[simp] theorem State.accept_turns (w : Word) : (s.accept w).turns = s.turns := rfl
@[simp] theorem State.accept_draw (w : Word) : (s.accept w).draw = s.draw := rfl

/-! ### `State.succeed` -/

@[simp] theorem State.succeed_par : s.succeed.par = s.par := rfl
@[simp] theorem State.succeed_cmd : s.succeed.cmd = s.cmd := rfl
@[simp] theorem State.succeed_busy : s.succeed.busy = false := rfl
@[simp] theorem State.succeed_done : s.succeed.done = true := rfl
@[simp] theorem State.succeed_err : s.succeed.err = false := rfl
@[simp] theorem State.succeed_wrbusy : s.succeed.wrbusy = s.wrbusy := rfl
@[simp] theorem State.succeed_errcode : s.succeed.errcode = 0#3 := rfl
@[simp] theorem State.succeed_simple : s.succeed.simple = s.simple := rfl
@[simp] theorem State.succeed_doneIe : s.succeed.doneIe = s.doneIe := rfl
@[simp] theorem State.succeed_errIe : s.succeed.errIe = s.errIe := rfl
@[simp] theorem State.succeed_bufSel : s.succeed.bufSel = s.bufSel := rfl
@[simp] theorem State.succeed_bufAddr : s.succeed.bufAddr = s.bufAddr := rfl
@[simp] theorem State.succeed_inLen : s.succeed.inLen = s.inLen := rfl
@[simp] theorem State.succeed_outLen : s.succeed.outLen = s.outLen := rfl
@[simp] theorem State.succeed_saltLen : s.succeed.saltLen = s.saltLen := rfl
@[simp] theorem State.succeed_passLen : s.succeed.passLen = s.passLen := rfl
@[simp] theorem State.succeed_mult : s.succeed.mult = s.mult := rfl
@[simp] theorem State.succeed_vecSize : s.succeed.vecSize = s.vecSize := rfl
@[simp] theorem State.succeed_ivalLo : s.succeed.ivalLo = s.ivalLo := rfl
@[simp] theorem State.succeed_ivalHi : s.succeed.ivalHi = s.ivalHi := rfl
@[simp] theorem State.succeed_keyLen : s.succeed.keyLen = s.keyLen := rfl
@[simp] theorem State.succeed_chunkId : s.succeed.chunkId = s.chunkId := rfl
@[simp] theorem State.succeed_rand : s.succeed.rand = s.rand := rfl
@[simp] theorem State.succeed_crcInit : s.succeed.crcInit = s.crcInit := rfl
@[simp] theorem State.succeed_crcRaw : s.succeed.crcRaw = s.crcRaw := rfl
@[simp] theorem State.succeed_hType : s.succeed.hType = s.hType := rfl
@[simp] theorem State.succeed_hOsize : s.succeed.hOsize = s.hOsize := rfl
@[simp] theorem State.succeed_hEsize : s.succeed.hEsize = s.hEsize := rfl
@[simp] theorem State.succeed_hCrc : s.succeed.hCrc = s.hCrc := rfl
@[simp] theorem State.succeed_hShift : s.succeed.hShift = s.hShift := rfl
@[simp] theorem State.succeed_mpBase : s.succeed.mpBase = s.mpBase := rfl
@[simp] theorem State.succeed_mpExp : s.succeed.mpExp = s.mpExp := rfl
@[simp] theorem State.succeed_mpMod : s.succeed.mpMod = s.mpMod := rfl
@[simp] theorem State.succeed_mpRes : s.succeed.mpRes = s.mpRes := rfl
@[simp] theorem State.succeed_prNLo : s.succeed.prNLo = s.prNLo := rfl
@[simp] theorem State.succeed_prNHi : s.succeed.prNHi = s.prNHi := rfl
@[simp] theorem State.succeed_prRes : s.succeed.prRes = s.prRes := rfl
@[simp] theorem State.succeed_ibuf : s.succeed.ibuf = s.ibuf := rfl
@[simp] theorem State.succeed_obuf : s.succeed.obuf = s.obuf := rfl
@[simp] theorem State.succeed_salt : s.succeed.salt = s.salt := rfl
@[simp] theorem State.succeed_pass : s.succeed.pass = s.pass := rfl
@[simp] theorem State.succeed_iv : s.succeed.iv = s.iv := rfl
@[simp] theorem State.succeed_keyn : s.succeed.keyn = s.keyn := rfl
@[simp] theorem State.succeed_keyx : s.succeed.keyx = s.keyx := rfl
@[simp] theorem State.succeed_rst : s.succeed.rst = s.rst := rfl
@[simp] theorem State.succeed_rdata : s.succeed.rdata = s.rdata := rfl
@[simp] theorem State.succeed_turns : s.succeed.turns = s.turns := rfl
@[simp] theorem State.succeed_draw : s.succeed.draw = s.draw := rfl

/-! ### `State.fail` -/

@[simp] theorem State.fail_par (e : ErrCode) : (s.fail e).par = s.par := rfl
@[simp] theorem State.fail_cmd (e : ErrCode) : (s.fail e).cmd = s.cmd := rfl
@[simp] theorem State.fail_busy (e : ErrCode) : (s.fail e).busy = false := rfl
@[simp] theorem State.fail_done (e : ErrCode) : (s.fail e).done = true := rfl
@[simp] theorem State.fail_err (e : ErrCode) : (s.fail e).err = true := rfl
@[simp] theorem State.fail_wrbusy (e : ErrCode) : (s.fail e).wrbusy = s.wrbusy := rfl
@[simp] theorem State.fail_errcode (e : ErrCode) : (s.fail e).errcode = errNumber e := rfl
@[simp] theorem State.fail_simple (e : ErrCode) : (s.fail e).simple = s.simple := rfl
@[simp] theorem State.fail_doneIe (e : ErrCode) : (s.fail e).doneIe = s.doneIe := rfl
@[simp] theorem State.fail_errIe (e : ErrCode) : (s.fail e).errIe = s.errIe := rfl
@[simp] theorem State.fail_bufSel (e : ErrCode) : (s.fail e).bufSel = s.bufSel := rfl
@[simp] theorem State.fail_bufAddr (e : ErrCode) : (s.fail e).bufAddr = s.bufAddr := rfl
@[simp] theorem State.fail_inLen (e : ErrCode) : (s.fail e).inLen = s.inLen := rfl
@[simp] theorem State.fail_outLen (e : ErrCode) : (s.fail e).outLen = s.outLen := rfl
@[simp] theorem State.fail_saltLen (e : ErrCode) : (s.fail e).saltLen = s.saltLen := rfl
@[simp] theorem State.fail_passLen (e : ErrCode) : (s.fail e).passLen = s.passLen := rfl
@[simp] theorem State.fail_mult (e : ErrCode) : (s.fail e).mult = s.mult := rfl
@[simp] theorem State.fail_vecSize (e : ErrCode) : (s.fail e).vecSize = s.vecSize := rfl
@[simp] theorem State.fail_ivalLo (e : ErrCode) : (s.fail e).ivalLo = s.ivalLo := rfl
@[simp] theorem State.fail_ivalHi (e : ErrCode) : (s.fail e).ivalHi = s.ivalHi := rfl
@[simp] theorem State.fail_keyLen (e : ErrCode) : (s.fail e).keyLen = s.keyLen := rfl
@[simp] theorem State.fail_chunkId (e : ErrCode) : (s.fail e).chunkId = s.chunkId := rfl
@[simp] theorem State.fail_rand (e : ErrCode) : (s.fail e).rand = s.rand := rfl
@[simp] theorem State.fail_crcInit (e : ErrCode) : (s.fail e).crcInit = s.crcInit := rfl
@[simp] theorem State.fail_crcRaw (e : ErrCode) : (s.fail e).crcRaw = s.crcRaw := rfl
@[simp] theorem State.fail_hType (e : ErrCode) : (s.fail e).hType = s.hType := rfl
@[simp] theorem State.fail_hOsize (e : ErrCode) : (s.fail e).hOsize = s.hOsize := rfl
@[simp] theorem State.fail_hEsize (e : ErrCode) : (s.fail e).hEsize = s.hEsize := rfl
@[simp] theorem State.fail_hCrc (e : ErrCode) : (s.fail e).hCrc = s.hCrc := rfl
@[simp] theorem State.fail_hShift (e : ErrCode) : (s.fail e).hShift = s.hShift := rfl
@[simp] theorem State.fail_mpBase (e : ErrCode) : (s.fail e).mpBase = s.mpBase := rfl
@[simp] theorem State.fail_mpExp (e : ErrCode) : (s.fail e).mpExp = s.mpExp := rfl
@[simp] theorem State.fail_mpMod (e : ErrCode) : (s.fail e).mpMod = s.mpMod := rfl
@[simp] theorem State.fail_mpRes (e : ErrCode) : (s.fail e).mpRes = s.mpRes := rfl
@[simp] theorem State.fail_prNLo (e : ErrCode) : (s.fail e).prNLo = s.prNLo := rfl
@[simp] theorem State.fail_prNHi (e : ErrCode) : (s.fail e).prNHi = s.prNHi := rfl
@[simp] theorem State.fail_prRes (e : ErrCode) : (s.fail e).prRes = s.prRes := rfl
@[simp] theorem State.fail_ibuf (e : ErrCode) : (s.fail e).ibuf = s.ibuf := rfl
@[simp] theorem State.fail_obuf (e : ErrCode) : (s.fail e).obuf = s.obuf := rfl
@[simp] theorem State.fail_salt (e : ErrCode) : (s.fail e).salt = s.salt := rfl
@[simp] theorem State.fail_pass (e : ErrCode) : (s.fail e).pass = s.pass := rfl
@[simp] theorem State.fail_iv (e : ErrCode) : (s.fail e).iv = s.iv := rfl
@[simp] theorem State.fail_keyn (e : ErrCode) : (s.fail e).keyn = s.keyn := rfl
@[simp] theorem State.fail_keyx (e : ErrCode) : (s.fail e).keyx = s.keyx := rfl
@[simp] theorem State.fail_rst (e : ErrCode) : (s.fail e).rst = s.rst := rfl
@[simp] theorem State.fail_rdata (e : ErrCode) : (s.fail e).rdata = s.rdata := rfl
@[simp] theorem State.fail_turns (e : ErrCode) : (s.fail e).turns = s.turns := rfl
@[simp] theorem State.fail_draw (e : ErrCode) : (s.fail e).draw = s.draw := rfl

/-! ### `State.dropOutput` -/

@[simp] theorem State.dropOutput_par : s.dropOutput.par = s.par := rfl
@[simp] theorem State.dropOutput_cmd : s.dropOutput.cmd = s.cmd := rfl
@[simp] theorem State.dropOutput_busy : s.dropOutput.busy = s.busy := rfl
@[simp] theorem State.dropOutput_done : s.dropOutput.done = s.done := rfl
@[simp] theorem State.dropOutput_err : s.dropOutput.err = s.err := rfl
@[simp] theorem State.dropOutput_wrbusy : s.dropOutput.wrbusy = s.wrbusy := rfl
@[simp] theorem State.dropOutput_errcode : s.dropOutput.errcode = s.errcode := rfl
@[simp] theorem State.dropOutput_simple : s.dropOutput.simple = s.simple := rfl
@[simp] theorem State.dropOutput_doneIe : s.dropOutput.doneIe = s.doneIe := rfl
@[simp] theorem State.dropOutput_errIe : s.dropOutput.errIe = s.errIe := rfl
@[simp] theorem State.dropOutput_bufSel : s.dropOutput.bufSel = s.bufSel := rfl
@[simp] theorem State.dropOutput_bufAddr : s.dropOutput.bufAddr = s.bufAddr := rfl
@[simp] theorem State.dropOutput_inLen : s.dropOutput.inLen = s.inLen := rfl
@[simp] theorem State.dropOutput_outLen : s.dropOutput.outLen = 0#32 := rfl
@[simp] theorem State.dropOutput_saltLen : s.dropOutput.saltLen = s.saltLen := rfl
@[simp] theorem State.dropOutput_passLen : s.dropOutput.passLen = s.passLen := rfl
@[simp] theorem State.dropOutput_mult : s.dropOutput.mult = s.mult := rfl
@[simp] theorem State.dropOutput_vecSize : s.dropOutput.vecSize = s.vecSize := rfl
@[simp] theorem State.dropOutput_ivalLo : s.dropOutput.ivalLo = s.ivalLo := rfl
@[simp] theorem State.dropOutput_ivalHi : s.dropOutput.ivalHi = s.ivalHi := rfl
@[simp] theorem State.dropOutput_keyLen : s.dropOutput.keyLen = s.keyLen := rfl
@[simp] theorem State.dropOutput_chunkId : s.dropOutput.chunkId = s.chunkId := rfl
@[simp] theorem State.dropOutput_rand : s.dropOutput.rand = s.rand := rfl
@[simp] theorem State.dropOutput_crcInit : s.dropOutput.crcInit = s.crcInit := rfl
@[simp] theorem State.dropOutput_crcRaw : s.dropOutput.crcRaw = s.crcRaw := rfl
@[simp] theorem State.dropOutput_hType : s.dropOutput.hType = s.hType := rfl
@[simp] theorem State.dropOutput_hOsize : s.dropOutput.hOsize = s.hOsize := rfl
@[simp] theorem State.dropOutput_hEsize : s.dropOutput.hEsize = s.hEsize := rfl
@[simp] theorem State.dropOutput_hCrc : s.dropOutput.hCrc = s.hCrc := rfl
@[simp] theorem State.dropOutput_hShift : s.dropOutput.hShift = s.hShift := rfl
@[simp] theorem State.dropOutput_mpBase : s.dropOutput.mpBase = s.mpBase := rfl
@[simp] theorem State.dropOutput_mpExp : s.dropOutput.mpExp = s.mpExp := rfl
@[simp] theorem State.dropOutput_mpMod : s.dropOutput.mpMod = s.mpMod := rfl
@[simp] theorem State.dropOutput_mpRes : s.dropOutput.mpRes = s.mpRes := rfl
@[simp] theorem State.dropOutput_prNLo : s.dropOutput.prNLo = s.prNLo := rfl
@[simp] theorem State.dropOutput_prNHi : s.dropOutput.prNHi = s.prNHi := rfl
@[simp] theorem State.dropOutput_prRes : s.dropOutput.prRes = s.prRes := rfl
@[simp] theorem State.dropOutput_ibuf : s.dropOutput.ibuf = s.ibuf := rfl
@[simp] theorem State.dropOutput_obuf : s.dropOutput.obuf = s.obuf := rfl
@[simp] theorem State.dropOutput_salt : s.dropOutput.salt = s.salt := rfl
@[simp] theorem State.dropOutput_pass : s.dropOutput.pass = s.pass := rfl
@[simp] theorem State.dropOutput_iv : s.dropOutput.iv = s.iv := rfl
@[simp] theorem State.dropOutput_keyn : s.dropOutput.keyn = s.keyn := rfl
@[simp] theorem State.dropOutput_keyx : s.dropOutput.keyx = s.keyx := rfl
@[simp] theorem State.dropOutput_rst : s.dropOutput.rst = s.rst := rfl
@[simp] theorem State.dropOutput_rdata : s.dropOutput.rdata = s.rdata := rfl
@[simp] theorem State.dropOutput_turns : s.dropOutput.turns = s.turns := rfl
@[simp] theorem State.dropOutput_draw : s.dropOutput.draw = s.draw := rfl

/-! ### `State.advance` -/

@[simp] theorem State.advance_par : s.advance.par = s.par := rfl
@[simp] theorem State.advance_cmd : s.advance.cmd = s.cmd := rfl
@[simp] theorem State.advance_busy : s.advance.busy = s.busy := rfl
@[simp] theorem State.advance_done : s.advance.done = s.done := rfl
@[simp] theorem State.advance_err : s.advance.err = s.err := rfl
@[simp] theorem State.advance_wrbusy : s.advance.wrbusy = s.wrbusy := rfl
@[simp] theorem State.advance_errcode : s.advance.errcode = s.errcode := rfl
@[simp] theorem State.advance_simple : s.advance.simple = s.simple := rfl
@[simp] theorem State.advance_doneIe : s.advance.doneIe = s.doneIe := rfl
@[simp] theorem State.advance_errIe : s.advance.errIe = s.errIe := rfl
@[simp] theorem State.advance_bufSel : s.advance.bufSel = s.bufSel := rfl
@[simp] theorem State.advance_bufAddr : s.advance.bufAddr = s.bufAddr := rfl
@[simp] theorem State.advance_inLen : s.advance.inLen = s.inLen := rfl
@[simp] theorem State.advance_outLen : s.advance.outLen = s.outLen := rfl
@[simp] theorem State.advance_saltLen : s.advance.saltLen = s.saltLen := rfl
@[simp] theorem State.advance_passLen : s.advance.passLen = s.passLen := rfl
@[simp] theorem State.advance_mult : s.advance.mult = s.mult := rfl
@[simp] theorem State.advance_vecSize : s.advance.vecSize = s.vecSize := rfl
@[simp] theorem State.advance_ivalLo : s.advance.ivalLo = s.ivalLo := rfl
@[simp] theorem State.advance_ivalHi : s.advance.ivalHi = s.ivalHi := rfl
@[simp] theorem State.advance_keyLen : s.advance.keyLen = s.keyLen := rfl
@[simp] theorem State.advance_chunkId : s.advance.chunkId = s.chunkId := rfl
@[simp] theorem State.advance_rand : s.advance.rand = s.rand := rfl
@[simp] theorem State.advance_crcInit : s.advance.crcInit = s.crcInit := rfl
@[simp] theorem State.advance_crcRaw : s.advance.crcRaw = s.crcRaw := rfl
@[simp] theorem State.advance_hType : s.advance.hType = s.hType := rfl
@[simp] theorem State.advance_hOsize : s.advance.hOsize = s.hOsize := rfl
@[simp] theorem State.advance_hEsize : s.advance.hEsize = s.hEsize := rfl
@[simp] theorem State.advance_hCrc : s.advance.hCrc = s.hCrc := rfl
@[simp] theorem State.advance_hShift : s.advance.hShift = s.hShift := rfl
@[simp] theorem State.advance_mpBase : s.advance.mpBase = s.mpBase := rfl
@[simp] theorem State.advance_mpExp : s.advance.mpExp = s.mpExp := rfl
@[simp] theorem State.advance_mpMod : s.advance.mpMod = s.mpMod := rfl
@[simp] theorem State.advance_mpRes : s.advance.mpRes = s.mpRes := rfl
@[simp] theorem State.advance_prNLo : s.advance.prNLo = s.prNLo := rfl
@[simp] theorem State.advance_prNHi : s.advance.prNHi = s.prNHi := rfl
@[simp] theorem State.advance_prRes : s.advance.prRes = s.prRes := rfl
@[simp] theorem State.advance_ibuf : s.advance.ibuf = s.ibuf := rfl
@[simp] theorem State.advance_obuf : s.advance.obuf = s.obuf := rfl
@[simp] theorem State.advance_salt : s.advance.salt = s.salt := rfl
@[simp] theorem State.advance_pass : s.advance.pass = s.pass := rfl
@[simp] theorem State.advance_iv : s.advance.iv = s.iv := rfl
@[simp] theorem State.advance_keyn : s.advance.keyn = s.keyn := rfl
@[simp] theorem State.advance_keyx : s.advance.keyx = s.keyx := rfl
@[simp] theorem State.advance_rst : s.advance.rst = s.rst := rfl
@[simp] theorem State.advance_rdata : s.advance.rdata = none := rfl
@[simp] theorem State.advance_turns : s.advance.turns = s.turns.tail := rfl
@[simp] theorem State.advance_draw : s.advance.draw = s.draw + 1 := rfl

/-! ### `State.cleanup` -/

@[simp] theorem State.cleanup_par : s.cleanup.par = s.par := rfl
@[simp] theorem State.cleanup_cmd : s.cleanup.cmd = s.cmd := rfl
@[simp] theorem State.cleanup_busy : s.cleanup.busy = s.busy := rfl
@[simp] theorem State.cleanup_done : s.cleanup.done = s.done := rfl
@[simp] theorem State.cleanup_err : s.cleanup.err = s.err := rfl
@[simp] theorem State.cleanup_wrbusy : s.cleanup.wrbusy = s.wrbusy := rfl
@[simp] theorem State.cleanup_errcode : s.cleanup.errcode = s.errcode := rfl
@[simp] theorem State.cleanup_simple : s.cleanup.simple = s.simple := rfl
@[simp] theorem State.cleanup_doneIe : s.cleanup.doneIe = s.doneIe := rfl
@[simp] theorem State.cleanup_errIe : s.cleanup.errIe = s.errIe := rfl
@[simp] theorem State.cleanup_bufSel : s.cleanup.bufSel = s.bufSel := rfl
@[simp] theorem State.cleanup_bufAddr : s.cleanup.bufAddr = s.bufAddr := rfl
@[simp] theorem State.cleanup_inLen : s.cleanup.inLen = s.inLen := rfl
@[simp] theorem State.cleanup_outLen : s.cleanup.outLen = s.outLen := rfl
@[simp] theorem State.cleanup_saltLen : s.cleanup.saltLen = s.saltLen := rfl
@[simp] theorem State.cleanup_passLen : s.cleanup.passLen = s.passLen := rfl
@[simp] theorem State.cleanup_mult : s.cleanup.mult = s.mult := rfl
@[simp] theorem State.cleanup_vecSize : s.cleanup.vecSize = 0#32 := rfl
@[simp] theorem State.cleanup_ivalLo : s.cleanup.ivalLo = 0#32 := rfl
@[simp] theorem State.cleanup_ivalHi : s.cleanup.ivalHi = 0#32 := rfl
@[simp] theorem State.cleanup_keyLen : s.cleanup.keyLen = 0#32 := rfl
@[simp] theorem State.cleanup_chunkId : s.cleanup.chunkId = s.chunkId := rfl
@[simp] theorem State.cleanup_rand : s.cleanup.rand = s.rand := rfl
@[simp] theorem State.cleanup_crcInit : s.cleanup.crcInit = s.crcInit := rfl
@[simp] theorem State.cleanup_crcRaw : s.cleanup.crcRaw = s.crcRaw := rfl
@[simp] theorem State.cleanup_hType : s.cleanup.hType = s.hType := rfl
@[simp] theorem State.cleanup_hOsize : s.cleanup.hOsize = s.hOsize := rfl
@[simp] theorem State.cleanup_hEsize : s.cleanup.hEsize = s.hEsize := rfl
@[simp] theorem State.cleanup_hCrc : s.cleanup.hCrc = s.hCrc := rfl
@[simp] theorem State.cleanup_hShift : s.cleanup.hShift = s.hShift := rfl
@[simp] theorem State.cleanup_mpBase : s.cleanup.mpBase = s.mpBase := rfl
@[simp] theorem State.cleanup_mpExp : s.cleanup.mpExp = s.mpExp := rfl
@[simp] theorem State.cleanup_mpMod : s.cleanup.mpMod = s.mpMod := rfl
@[simp] theorem State.cleanup_mpRes : s.cleanup.mpRes = s.mpRes := rfl
@[simp] theorem State.cleanup_prNLo : s.cleanup.prNLo = s.prNLo := rfl
@[simp] theorem State.cleanup_prNHi : s.cleanup.prNHi = s.prNHi := rfl
@[simp] theorem State.cleanup_prRes : s.cleanup.prRes = s.prRes := rfl
@[simp] theorem State.cleanup_ibuf : s.cleanup.ibuf = s.ibuf := rfl
@[simp] theorem State.cleanup_obuf : s.cleanup.obuf = s.obuf := rfl
@[simp] theorem State.cleanup_salt : s.cleanup.salt = s.salt := rfl
@[simp] theorem State.cleanup_pass : s.cleanup.pass = s.pass := rfl
@[simp] theorem State.cleanup_iv : s.cleanup.iv = .zeros 32 := rfl
@[simp] theorem State.cleanup_keyn : s.cleanup.keyn = .zeros 32 := rfl
@[simp] theorem State.cleanup_keyx : s.cleanup.keyx = .zeros 32 := rfl
@[simp] theorem State.cleanup_rst : s.cleanup.rst = s.rst := rfl
@[simp] theorem State.cleanup_rdata : s.cleanup.rdata = s.rdata := rfl
@[simp] theorem State.cleanup_turns : s.cleanup.turns = s.turns := rfl
@[simp] theorem State.cleanup_draw : s.cleanup.draw = s.draw := rfl

/-! ### `State.storeSchedule` -/

@[simp] theorem State.storeSchedule_par (ws : List Word) (d : DWord) : (s.storeSchedule ws d).par = s.par := rfl
@[simp] theorem State.storeSchedule_cmd (ws : List Word) (d : DWord) : (s.storeSchedule ws d).cmd = s.cmd := rfl
@[simp] theorem State.storeSchedule_busy (ws : List Word) (d : DWord) : (s.storeSchedule ws d).busy = s.busy := rfl
@[simp] theorem State.storeSchedule_done (ws : List Word) (d : DWord) : (s.storeSchedule ws d).done = s.done := rfl
@[simp] theorem State.storeSchedule_err (ws : List Word) (d : DWord) : (s.storeSchedule ws d).err = s.err := rfl
@[simp] theorem State.storeSchedule_wrbusy (ws : List Word) (d : DWord) : (s.storeSchedule ws d).wrbusy = s.wrbusy := rfl
@[simp] theorem State.storeSchedule_errcode (ws : List Word) (d : DWord) : (s.storeSchedule ws d).errcode = s.errcode := rfl
@[simp] theorem State.storeSchedule_simple (ws : List Word) (d : DWord) : (s.storeSchedule ws d).simple = s.simple := rfl
@[simp] theorem State.storeSchedule_doneIe (ws : List Word) (d : DWord) : (s.storeSchedule ws d).doneIe = s.doneIe := rfl
@[simp] theorem State.storeSchedule_errIe (ws : List Word) (d : DWord) : (s.storeSchedule ws d).errIe = s.errIe := rfl
@[simp] theorem State.storeSchedule_bufSel (ws : List Word) (d : DWord) : (s.storeSchedule ws d).bufSel = s.bufSel := rfl
@[simp] theorem State.storeSchedule_bufAddr (ws : List Word) (d : DWord) : (s.storeSchedule ws d).bufAddr = s.bufAddr := rfl
@[simp] theorem State.storeSchedule_inLen (ws : List Word) (d : DWord) : (s.storeSchedule ws d).inLen = s.inLen := rfl
@[simp] theorem State.storeSchedule_outLen (ws : List Word) (d : DWord) : (s.storeSchedule ws d).outLen = s.outLen := rfl
@[simp] theorem State.storeSchedule_saltLen (ws : List Word) (d : DWord) : (s.storeSchedule ws d).saltLen = s.saltLen := rfl
@[simp] theorem State.storeSchedule_passLen (ws : List Word) (d : DWord) : (s.storeSchedule ws d).passLen = s.passLen := rfl
@[simp] theorem State.storeSchedule_mult (ws : List Word) (d : DWord) : (s.storeSchedule ws d).mult = s.mult := rfl
@[simp] theorem State.storeSchedule_vecSize (ws : List Word) (d : DWord) : (s.storeSchedule ws d).vecSize = BitVec.ofNat 32 ws.length := rfl
@[simp] theorem State.storeSchedule_ivalLo (ws : List Word) (d : DWord) : (s.storeSchedule ws d).ivalLo = d.extractLsb' 0 32 := rfl
@[simp] theorem State.storeSchedule_ivalHi (ws : List Word) (d : DWord) : (s.storeSchedule ws d).ivalHi = d.extractLsb' 32 32 := rfl
@[simp] theorem State.storeSchedule_keyLen (ws : List Word) (d : DWord) : (s.storeSchedule ws d).keyLen = s.keyLen := rfl
@[simp] theorem State.storeSchedule_chunkId (ws : List Word) (d : DWord) : (s.storeSchedule ws d).chunkId = s.chunkId := rfl
@[simp] theorem State.storeSchedule_rand (ws : List Word) (d : DWord) : (s.storeSchedule ws d).rand = s.rand := rfl
@[simp] theorem State.storeSchedule_crcInit (ws : List Word) (d : DWord) : (s.storeSchedule ws d).crcInit = s.crcInit := rfl
@[simp] theorem State.storeSchedule_crcRaw (ws : List Word) (d : DWord) : (s.storeSchedule ws d).crcRaw = s.crcRaw := rfl
@[simp] theorem State.storeSchedule_hType (ws : List Word) (d : DWord) : (s.storeSchedule ws d).hType = s.hType := rfl
@[simp] theorem State.storeSchedule_hOsize (ws : List Word) (d : DWord) : (s.storeSchedule ws d).hOsize = s.hOsize := rfl
@[simp] theorem State.storeSchedule_hEsize (ws : List Word) (d : DWord) : (s.storeSchedule ws d).hEsize = s.hEsize := rfl
@[simp] theorem State.storeSchedule_hCrc (ws : List Word) (d : DWord) : (s.storeSchedule ws d).hCrc = s.hCrc := rfl
@[simp] theorem State.storeSchedule_hShift (ws : List Word) (d : DWord) : (s.storeSchedule ws d).hShift = s.hShift := rfl
@[simp] theorem State.storeSchedule_mpBase (ws : List Word) (d : DWord) : (s.storeSchedule ws d).mpBase = s.mpBase := rfl
@[simp] theorem State.storeSchedule_mpExp (ws : List Word) (d : DWord) : (s.storeSchedule ws d).mpExp = s.mpExp := rfl
@[simp] theorem State.storeSchedule_mpMod (ws : List Word) (d : DWord) : (s.storeSchedule ws d).mpMod = s.mpMod := rfl
@[simp] theorem State.storeSchedule_mpRes (ws : List Word) (d : DWord) : (s.storeSchedule ws d).mpRes = s.mpRes := rfl
@[simp] theorem State.storeSchedule_prNLo (ws : List Word) (d : DWord) : (s.storeSchedule ws d).prNLo = s.prNLo := rfl
@[simp] theorem State.storeSchedule_prNHi (ws : List Word) (d : DWord) : (s.storeSchedule ws d).prNHi = s.prNHi := rfl
@[simp] theorem State.storeSchedule_prRes (ws : List Word) (d : DWord) : (s.storeSchedule ws d).prRes = s.prRes := rfl
@[simp] theorem State.storeSchedule_ibuf (ws : List Word) (d : DWord) : (s.storeSchedule ws d).ibuf = s.ibuf := rfl
@[simp] theorem State.storeSchedule_obuf (ws : List Word) (d : DWord) : (s.storeSchedule ws d).obuf = s.obuf := rfl
@[simp] theorem State.storeSchedule_salt (ws : List Word) (d : DWord) : (s.storeSchedule ws d).salt = s.salt := rfl
@[simp] theorem State.storeSchedule_pass (ws : List Word) (d : DWord) : (s.storeSchedule ws d).pass = s.pass := rfl
@[simp] theorem State.storeSchedule_iv (ws : List Word) (d : DWord) : (s.storeSchedule ws d).iv = s.iv.writeRange 0 ws := rfl
@[simp] theorem State.storeSchedule_keyn (ws : List Word) (d : DWord) : (s.storeSchedule ws d).keyn = s.keyn := rfl
@[simp] theorem State.storeSchedule_keyx (ws : List Word) (d : DWord) : (s.storeSchedule ws d).keyx = s.keyx := rfl
@[simp] theorem State.storeSchedule_rst (ws : List Word) (d : DWord) : (s.storeSchedule ws d).rst = s.rst := rfl
@[simp] theorem State.storeSchedule_rdata (ws : List Word) (d : DWord) : (s.storeSchedule ws d).rdata = s.rdata := rfl
@[simp] theorem State.storeSchedule_turns (ws : List Word) (d : DWord) : (s.storeSchedule ws d).turns = s.turns := rfl
@[simp] theorem State.storeSchedule_draw (ws : List Word) (d : DWord) : (s.storeSchedule ws d).draw = s.draw := rfl

/-! ### `State.storeOutput` -/

@[simp] theorem State.storeOutput_par (out : List Byte) : (s.storeOutput out).par = s.par := rfl
@[simp] theorem State.storeOutput_cmd (out : List Byte) : (s.storeOutput out).cmd = s.cmd := rfl
@[simp] theorem State.storeOutput_busy (out : List Byte) : (s.storeOutput out).busy = s.busy := rfl
@[simp] theorem State.storeOutput_done (out : List Byte) : (s.storeOutput out).done = s.done := rfl
@[simp] theorem State.storeOutput_err (out : List Byte) : (s.storeOutput out).err = s.err := rfl
@[simp] theorem State.storeOutput_wrbusy (out : List Byte) : (s.storeOutput out).wrbusy = s.wrbusy := rfl
@[simp] theorem State.storeOutput_errcode (out : List Byte) : (s.storeOutput out).errcode = s.errcode := rfl
@[simp] theorem State.storeOutput_simple (out : List Byte) : (s.storeOutput out).simple = s.simple := rfl
@[simp] theorem State.storeOutput_doneIe (out : List Byte) : (s.storeOutput out).doneIe = s.doneIe := rfl
@[simp] theorem State.storeOutput_errIe (out : List Byte) : (s.storeOutput out).errIe = s.errIe := rfl
@[simp] theorem State.storeOutput_bufSel (out : List Byte) : (s.storeOutput out).bufSel = s.bufSel := rfl
@[simp] theorem State.storeOutput_bufAddr (out : List Byte) : (s.storeOutput out).bufAddr = s.bufAddr := rfl
@[simp] theorem State.storeOutput_inLen (out : List Byte) : (s.storeOutput out).inLen = s.inLen := rfl
@[simp] theorem State.storeOutput_outLen (out : List Byte) : (s.storeOutput out).outLen = BitVec.ofNat 32 out.length := rfl
@[simp] theorem State.storeOutput_saltLen (out : List Byte) : (s.storeOutput out).saltLen = s.saltLen := rfl
@[simp] theorem State.storeOutput_passLen (out : List Byte) : (s.storeOutput out).passLen = s.passLen := rfl
@[simp] theorem State.storeOutput_mult (out : List Byte) : (s.storeOutput out).mult = s.mult := rfl
@[simp] theorem State.storeOutput_vecSize (out : List Byte) : (s.storeOutput out).vecSize = s.vecSize := rfl
@[simp] theorem State.storeOutput_ivalLo (out : List Byte) : (s.storeOutput out).ivalLo = s.ivalLo := rfl
@[simp] theorem State.storeOutput_ivalHi (out : List Byte) : (s.storeOutput out).ivalHi = s.ivalHi := rfl
@[simp] theorem State.storeOutput_keyLen (out : List Byte) : (s.storeOutput out).keyLen = s.keyLen := rfl
@[simp] theorem State.storeOutput_chunkId (out : List Byte) : (s.storeOutput out).chunkId = s.chunkId := rfl
@[simp] theorem State.storeOutput_rand (out : List Byte) : (s.storeOutput out).rand = s.rand := rfl
@[simp] theorem State.storeOutput_crcInit (out : List Byte) : (s.storeOutput out).crcInit = s.crcInit := rfl
@[simp] theorem State.storeOutput_crcRaw (out : List Byte) : (s.storeOutput out).crcRaw = s.crcRaw := rfl
@[simp] theorem State.storeOutput_hType (out : List Byte) : (s.storeOutput out).hType = s.hType := rfl
@[simp] theorem State.storeOutput_hOsize (out : List Byte) : (s.storeOutput out).hOsize = s.hOsize := rfl
@[simp] theorem State.storeOutput_hEsize (out : List Byte) : (s.storeOutput out).hEsize = s.hEsize := rfl
@[simp] theorem State.storeOutput_hCrc (out : List Byte) : (s.storeOutput out).hCrc = s.hCrc := rfl
@[simp] theorem State.storeOutput_hShift (out : List Byte) : (s.storeOutput out).hShift = s.hShift := rfl
@[simp] theorem State.storeOutput_mpBase (out : List Byte) : (s.storeOutput out).mpBase = s.mpBase := rfl
@[simp] theorem State.storeOutput_mpExp (out : List Byte) : (s.storeOutput out).mpExp = s.mpExp := rfl
@[simp] theorem State.storeOutput_mpMod (out : List Byte) : (s.storeOutput out).mpMod = s.mpMod := rfl
@[simp] theorem State.storeOutput_mpRes (out : List Byte) : (s.storeOutput out).mpRes = s.mpRes := rfl
@[simp] theorem State.storeOutput_prNLo (out : List Byte) : (s.storeOutput out).prNLo = s.prNLo := rfl
@[simp] theorem State.storeOutput_prNHi (out : List Byte) : (s.storeOutput out).prNHi = s.prNHi := rfl
@[simp] theorem State.storeOutput_prRes (out : List Byte) : (s.storeOutput out).prRes = s.prRes := rfl
@[simp] theorem State.storeOutput_ibuf (out : List Byte) : (s.storeOutput out).ibuf = s.ibuf := rfl
@[simp] theorem State.storeOutput_obuf (out : List Byte) : (s.storeOutput out).obuf = s.obuf.writeRange 0 out := rfl
@[simp] theorem State.storeOutput_salt (out : List Byte) : (s.storeOutput out).salt = s.salt := rfl
@[simp] theorem State.storeOutput_pass (out : List Byte) : (s.storeOutput out).pass = s.pass := rfl
@[simp] theorem State.storeOutput_iv (out : List Byte) : (s.storeOutput out).iv = s.iv := rfl
@[simp] theorem State.storeOutput_keyn (out : List Byte) : (s.storeOutput out).keyn = s.keyn := rfl
@[simp] theorem State.storeOutput_keyx (out : List Byte) : (s.storeOutput out).keyx = s.keyx := rfl
@[simp] theorem State.storeOutput_rst (out : List Byte) : (s.storeOutput out).rst = s.rst := rfl
@[simp] theorem State.storeOutput_rdata (out : List Byte) : (s.storeOutput out).rdata = s.rdata := rfl
@[simp] theorem State.storeOutput_turns (out : List Byte) : (s.storeOutput out).turns = s.turns := rfl
@[simp] theorem State.storeOutput_draw (out : List Byte) : (s.storeOutput out).draw = s.draw := rfl

/-! ### `State.storeHeader` -/

@[simp] theorem State.storeHeader_par (h : Header) : (s.storeHeader h).par = s.par := rfl
@[simp] theorem State.storeHeader_cmd (h : Header) : (s.storeHeader h).cmd = s.cmd := rfl
@[simp] theorem State.storeHeader_busy (h : Header) : (s.storeHeader h).busy = s.busy := rfl
@[simp] theorem State.storeHeader_done (h : Header) : (s.storeHeader h).done = s.done := rfl
@[simp] theorem State.storeHeader_err (h : Header) : (s.storeHeader h).err = s.err := rfl
@[simp] theorem State.storeHeader_wrbusy (h : Header) : (s.storeHeader h).wrbusy = s.wrbusy := rfl
@[simp] theorem State.storeHeader_errcode (h : Header) : (s.storeHeader h).errcode = s.errcode := rfl
@[simp] theorem State.storeHeader_simple (h : Header) : (s.storeHeader h).simple = s.simple := rfl
@[simp] theorem State.storeHeader_doneIe (h : Header) : (s.storeHeader h).doneIe = s.doneIe := rfl
@[simp] theorem State.storeHeader_errIe (h : Header) : (s.storeHeader h).errIe = s.errIe := rfl
@[simp] theorem State.storeHeader_bufSel (h : Header) : (s.storeHeader h).bufSel = s.bufSel := rfl
@[simp] theorem State.storeHeader_bufAddr (h : Header) : (s.storeHeader h).bufAddr = s.bufAddr := rfl
@[simp] theorem State.storeHeader_inLen (h : Header) : (s.storeHeader h).inLen = s.inLen := rfl
@[simp] theorem State.storeHeader_outLen (h : Header) : (s.storeHeader h).outLen = s.outLen := rfl
@[simp] theorem State.storeHeader_saltLen (h : Header) : (s.storeHeader h).saltLen = s.saltLen := rfl
@[simp] theorem State.storeHeader_passLen (h : Header) : (s.storeHeader h).passLen = s.passLen := rfl
@[simp] theorem State.storeHeader_mult (h : Header) : (s.storeHeader h).mult = s.mult := rfl
@[simp] theorem State.storeHeader_vecSize (h : Header) : (s.storeHeader h).vecSize = s.vecSize := rfl
@[simp] theorem State.storeHeader_ivalLo (h : Header) : (s.storeHeader h).ivalLo = s.ivalLo := rfl
@[simp] theorem State.storeHeader_ivalHi (h : Header) : (s.storeHeader h).ivalHi = s.ivalHi := rfl
@[simp] theorem State.storeHeader_keyLen (h : Header) : (s.storeHeader h).keyLen = s.keyLen := rfl
@[simp] theorem State.storeHeader_chunkId (h : Header) : (s.storeHeader h).chunkId = s.chunkId := rfl
@[simp] theorem State.storeHeader_rand (h : Header) : (s.storeHeader h).rand = s.rand := rfl
@[simp] theorem State.storeHeader_crcInit (h : Header) : (s.storeHeader h).crcInit = s.crcInit := rfl
@[simp] theorem State.storeHeader_crcRaw (h : Header) : (s.storeHeader h).crcRaw = s.crcRaw := rfl
@[simp] theorem State.storeHeader_hType (h : Header) : (s.storeHeader h).hType = h.type := rfl
@[simp] theorem State.storeHeader_hOsize (h : Header) : (s.storeHeader h).hOsize = h.osize := rfl
@[simp] theorem State.storeHeader_hEsize (h : Header) : (s.storeHeader h).hEsize = h.esize := rfl
@[simp] theorem State.storeHeader_hCrc (h : Header) : (s.storeHeader h).hCrc = h.crc := rfl
@[simp] theorem State.storeHeader_hShift (h : Header) : (s.storeHeader h).hShift = h.shift := rfl
@[simp] theorem State.storeHeader_mpBase (h : Header) : (s.storeHeader h).mpBase = s.mpBase := rfl
@[simp] theorem State.storeHeader_mpExp (h : Header) : (s.storeHeader h).mpExp = s.mpExp := rfl
@[simp] theorem State.storeHeader_mpMod (h : Header) : (s.storeHeader h).mpMod = s.mpMod := rfl
@[simp] theorem State.storeHeader_mpRes (h : Header) : (s.storeHeader h).mpRes = s.mpRes := rfl
@[simp] theorem State.storeHeader_prNLo (h : Header) : (s.storeHeader h).prNLo = s.prNLo := rfl
@[simp] theorem State.storeHeader_prNHi (h : Header) : (s.storeHeader h).prNHi = s.prNHi := rfl
@[simp] theorem State.storeHeader_prRes (h : Header) : (s.storeHeader h).prRes = s.prRes := rfl
@[simp] theorem State.storeHeader_ibuf (h : Header) : (s.storeHeader h).ibuf = s.ibuf := rfl
@[simp] theorem State.storeHeader_obuf (h : Header) : (s.storeHeader h).obuf = s.obuf := rfl
@[simp] theorem State.storeHeader_salt (h : Header) : (s.storeHeader h).salt = s.salt := rfl
@[simp] theorem State.storeHeader_pass (h : Header) : (s.storeHeader h).pass = s.pass := rfl
@[simp] theorem State.storeHeader_iv (h : Header) : (s.storeHeader h).iv = s.iv := rfl
@[simp] theorem State.storeHeader_keyn (h : Header) : (s.storeHeader h).keyn = s.keyn := rfl
@[simp] theorem State.storeHeader_keyx (h : Header) : (s.storeHeader h).keyx = s.keyx := rfl
@[simp] theorem State.storeHeader_rst (h : Header) : (s.storeHeader h).rst = s.rst := rfl
@[simp] theorem State.storeHeader_rdata (h : Header) : (s.storeHeader h).rdata = s.rdata := rfl
@[simp] theorem State.storeHeader_turns (h : Header) : (s.storeHeader h).turns = s.turns := rfl
@[simp] theorem State.storeHeader_draw (h : Header) : (s.storeHeader h).draw = s.draw := rfl

/-! ### `State.storeChunk` -/

@[simp] theorem State.storeChunk_par (crc field : Word) (c : List Byte) : (s.storeChunk crc field c).par = s.par := rfl
@[simp] theorem State.storeChunk_cmd (crc field : Word) (c : List Byte) : (s.storeChunk crc field c).cmd = s.cmd := rfl
@[simp] theorem State.storeChunk_busy (crc field : Word) (c : List Byte) : (s.storeChunk crc field c).busy = s.busy := rfl
@[simp] theorem State.storeChunk_done (crc field : Word) (c : List Byte) : (s.storeChunk crc field c).done = s.done := rfl
@[simp] theorem State.storeChunk_err (crc field : Word) (c : List Byte) : (s.storeChunk crc field c).err = s.err := rfl
@[simp] theorem State.storeChunk_wrbusy (crc field : Word) (c : List Byte) : (s.storeChunk crc field c).wrbusy = s.wrbusy := rfl
@[simp] theorem State.storeChunk_errcode (crc field : Word) (c : List Byte) : (s.storeChunk crc field c).errcode = s.errcode := rfl
@[simp] theorem State.storeChunk_simple (crc field : Word) (c : List Byte) : (s.storeChunk crc field c).simple = s.simple := rfl
@[simp] theorem State.storeChunk_doneIe (crc field : Word) (c : List Byte) : (s.storeChunk crc field c).doneIe = s.doneIe := rfl
@[simp] theorem State.storeChunk_errIe (crc field : Word) (c : List Byte) : (s.storeChunk crc field c).errIe = s.errIe := rfl
@[simp] theorem State.storeChunk_bufSel (crc field : Word) (c : List Byte) : (s.storeChunk crc field c).bufSel = s.bufSel := rfl
@[simp] theorem State.storeChunk_bufAddr (crc field : Word) (c : List Byte) : (s.storeChunk crc field c).bufAddr = s.bufAddr := rfl
@[simp] theorem State.storeChunk_inLen (crc field : Word) (c : List Byte) : (s.storeChunk crc field c).inLen = s.inLen := rfl
@[simp] theorem State.storeChunk_outLen (crc field : Word) (c : List Byte) : (s.storeChunk crc field c).outLen = BitVec.ofNat 32 (hdrBytes s.par s.hType s.inLen s.encEsize crc field ++ c).length := rfl
@[simp] theorem State.storeChunk_saltLen (crc field : Word) (c : List Byte) : (s.storeChunk crc field c).saltLen = s.saltLen := rfl
@[simp] theorem State.storeChunk_passLen (crc field : Word) (c : List Byte) : (s.storeChunk crc field c).passLen = s.passLen := rfl
@[simp] theorem State.storeChunk_mult (crc field : Word) (c : List Byte) : (s.storeChunk crc field c).mult = s.mult := rfl
@[simp] theorem State.storeChunk_vecSize (crc field : Word) (c : List Byte) : (s.storeChunk crc field c).vecSize = s.vecSize := rfl
@[simp] theorem State.storeChunk_ivalLo (crc field : Word) (c : List Byte) : (s.storeChunk crc field c).ivalLo = s.ivalLo := rfl
@[simp] theorem State.storeChunk_ivalHi (crc field : Word) (c : List Byte) : (s.storeChunk crc field c).ivalHi = s.ivalHi := rfl
@[simp] theorem State.storeChunk_keyLen (crc field : Word) (c : List Byte) : (s.storeChunk crc field c).keyLen = s.keyLen := rfl
@[simp] theorem State.storeChunk_chunkId (crc field : Word) (c : List Byte) : (s.storeChunk crc field c).chunkId = s.chunkId := rfl
@[simp] theorem State.storeChunk_rand (crc field : Word) (c : List Byte) : (s.storeChunk crc field c).rand = s.rand := rfl
@[simp] theorem State.storeChunk_crcInit (crc field : Word) (c : List Byte) : (s.storeChunk crc field c).crcInit = s.crcInit := rfl
@[simp] theorem State.storeChunk_crcRaw (crc field : Word) (c : List Byte) : (s.storeChunk crc field c).crcRaw = s.crcRaw := rfl
@[simp] theorem State.storeChunk_hType (crc field : Word) (c : List Byte) : (s.storeChunk crc field c).hType = s.hType := rfl
@[simp] theorem State.storeChunk_hOsize (crc field : Word) (c : List Byte) : (s.storeChunk crc field c).hOsize = s.inLen := rfl
@[simp] theorem State.storeChunk_hEsize (crc field : Word) (c : List Byte) : (s.storeChunk crc field c).hEsize = s.encEsize := rfl
@[simp] theorem State.storeChunk_hCrc (crc field : Word) (c : List Byte) : (s.storeChunk crc field c).hCrc = crc := rfl
@[simp] theorem State.storeChunk_hShift (crc field : Word) (c : List Byte) : (s.storeChunk crc field c).hShift = field := rfl
@[simp] theorem State.storeChunk_mpBase (crc field : Word) (c : List Byte) : (s.storeChunk crc field c).mpBase = s.mpBase := rfl
@[simp] theorem State.storeChunk_mpExp (crc field : Word) (c : List Byte) : (s.storeChunk crc field c).mpExp = s.mpExp := rfl
@[simp] theorem State.storeChunk_mpMod (crc field : Word) (c : List Byte) : (s.storeChunk crc field c).mpMod = s.mpMod := rfl
@[simp] theorem State.storeChunk_mpRes (crc field : Word) (c : List Byte) : (s.storeChunk crc field c).mpRes = s.mpRes := rfl
@[simp] theorem State.storeChunk_prNLo (crc field : Word) (c : List Byte) : (s.storeChunk crc field c).prNLo = s.prNLo := rfl
@[simp] theorem State.storeChunk_prNHi (crc field : Word) (c : List Byte) : (s.storeChunk crc field c).prNHi = s.prNHi := rfl
@[simp] theorem State.storeChunk_prRes (crc field : Word) (c : List Byte) : (s.storeChunk crc field c).prRes = s.prRes := rfl
@[simp] theorem State.storeChunk_ibuf (crc field : Word) (c : List Byte) : (s.storeChunk crc field c).ibuf = s.ibuf := rfl
@[simp] theorem State.storeChunk_obuf (crc field : Word) (c : List Byte) : (s.storeChunk crc field c).obuf = s.obuf.writeRange 0 (hdrBytes s.par s.hType s.inLen s.encEsize crc field ++ c) := rfl
@[simp] theorem State.storeChunk_salt (crc field : Word) (c : List Byte) : (s.storeChunk crc field c).salt = s.salt := rfl
@[simp] theorem State.storeChunk_pass (crc field : Word) (c : List Byte) : (s.storeChunk crc field c).pass = s.pass := rfl
@[simp] theorem State.storeChunk_iv (crc field : Word) (c : List Byte) : (s.storeChunk crc field c).iv = s.iv := rfl
@[simp] theorem State.storeChunk_keyn (crc field : Word) (c : List Byte) : (s.storeChunk crc field c).keyn = s.keyn := rfl
@[simp] theorem State.storeChunk_keyx (crc field : Word) (c : List Byte) : (s.storeChunk crc field c).keyx = s.keyx := rfl
@[simp] theorem State.storeChunk_rst (crc field : Word) (c : List Byte) : (s.storeChunk crc field c).rst = s.rst := rfl
@[simp] theorem State.storeChunk_rdata (crc field : Word) (c : List Byte) : (s.storeChunk crc field c).rdata = s.rdata := rfl
@[simp] theorem State.storeChunk_turns (crc field : Word) (c : List Byte) : (s.storeChunk crc field c).turns = s.turns := rfl
@[simp] theorem State.storeChunk_draw (crc field : Word) (c : List Byte) : (s.storeChunk crc field c).draw = s.draw := rfl

/-! ### `State.bumpAddr` -/

@[simp] theorem State.bumpAddr_par : s.bumpAddr.par = s.par := rfl
@[simp] theorem State.bumpAddr_cmd : s.bumpAddr.cmd = s.cmd := rfl
@[simp] theorem State.bumpAddr_busy : s.bumpAddr.busy = s.busy := rfl
@[simp] theorem State.bumpAddr_done : s.bumpAddr.done = s.done := rfl
@[simp] theorem State.bumpAddr_err : s.bumpAddr.err = s.err := rfl
@[simp] theorem State.bumpAddr_wrbusy : s.bumpAddr.wrbusy = s.wrbusy := rfl
@[simp] theorem State.bumpAddr_errcode : s.bumpAddr.errcode = s.errcode := rfl
@[simp] theorem State.bumpAddr_simple : s.bumpAddr.simple = s.simple := rfl
@[simp] theorem State.bumpAddr_doneIe : s.bumpAddr.doneIe = s.doneIe := rfl
@[simp] theorem State.bumpAddr_errIe : s.bumpAddr.errIe = s.errIe := rfl
@[simp] theorem State.bumpAddr_bufSel : s.bumpAddr.bufSel = s.bufSel := rfl
@[simp] theorem State.bumpAddr_bufAddr : s.bumpAddr.bufAddr = s.bufAddr + 1#32 := rfl
@[simp] theorem State.bumpAddr_inLen : s.bumpAddr.inLen = s.inLen := rfl
@[simp] theorem State.bumpAddr_outLen : s.bumpAddr.outLen = s.outLen := rfl
@[simp] theorem State.bumpAddr_saltLen : s.bumpAddr.saltLen = s.saltLen := rfl
@[simp] theorem State.bumpAddr_passLen : s.bumpAddr.passLen = s.passLen := rfl
@[simp] theorem State.bumpAddr_mult : s.bumpAddr.mult = s.mult := rfl
@[simp] theorem State.bumpAddr_vecSize : s.bumpAddr.vecSize = s.vecSize := rfl
@[simp] theorem State.bumpAddr_ivalLo : s.bumpAddr.ivalLo = s.ivalLo := rfl
@[simp] theorem State.bumpAddr_ivalHi : s.bumpAddr.ivalHi = s.ivalHi := rfl
@[simp] theorem State.bumpAddr_keyLen : s.bumpAddr.keyLen = s.keyLen := rfl
@[simp] theorem State.bumpAddr_chunkId : s.bumpAddr.chunkId = s.chunkId := rfl
@[simp] theorem State.bumpAddr_rand : s.bumpAddr.rand = s.rand := rfl
@[simp] theorem State.bumpAddr_crcInit : s.bumpAddr.crcInit = s.crcInit := rfl
@[simp] theorem State.bumpAddr_crcRaw : s.bumpAddr.crcRaw = s.crcRaw := rfl
@[simp] theorem State.bumpAddr_hType : s.bumpAddr.hType = s.hType := rfl
@[simp] theorem State.bumpAddr_hOsize : s.bumpAddr.hOsize = s.hOsize := rfl
@[simp] theorem State.bumpAddr_hEsize : s.bumpAddr.hEsize = s.hEsize := rfl
@[simp] theorem State.bumpAddr_hCrc : s.bumpAddr.hCrc = s.hCrc := rfl
@[simp] theorem State.bumpAddr_hShift : s.bumpAddr.hShift = s.hShift := rfl
@[simp] theorem State.bumpAddr_mpBase : s.bumpAddr.mpBase = s.mpBase := rfl
@[simp] theorem State.bumpAddr_mpExp : s.bumpAddr.mpExp = s.mpExp := rfl
@[simp] theorem State.bumpAddr_mpMod : s.bumpAddr.mpMod = s.mpMod := rfl
@[simp] theorem State.bumpAddr_mpRes : s.bumpAddr.mpRes = s.mpRes := rfl
@[simp] theorem State.bumpAddr_prNLo : s.bumpAddr.prNLo = s.prNLo := rfl
@[simp] theorem State.bumpAddr_prNHi : s.bumpAddr.prNHi = s.prNHi := rfl
@[simp] theorem State.bumpAddr_prRes : s.bumpAddr.prRes = s.prRes := rfl
@[simp] theorem State.bumpAddr_ibuf : s.bumpAddr.ibuf = s.ibuf := rfl
@[simp] theorem State.bumpAddr_obuf : s.bumpAddr.obuf = s.obuf := rfl
@[simp] theorem State.bumpAddr_salt : s.bumpAddr.salt = s.salt := rfl
@[simp] theorem State.bumpAddr_pass : s.bumpAddr.pass = s.pass := rfl
@[simp] theorem State.bumpAddr_iv : s.bumpAddr.iv = s.iv := rfl
@[simp] theorem State.bumpAddr_keyn : s.bumpAddr.keyn = s.keyn := rfl
@[simp] theorem State.bumpAddr_keyx : s.bumpAddr.keyx = s.keyx := rfl
@[simp] theorem State.bumpAddr_rst : s.bumpAddr.rst = s.rst := rfl
@[simp] theorem State.bumpAddr_rdata : s.bumpAddr.rdata = s.rdata := rfl
@[simp] theorem State.bumpAddr_turns : s.bumpAddr.turns = s.turns := rfl
@[simp] theorem State.bumpAddr_draw : s.bumpAddr.draw = s.draw := rfl

/-! ### `State.clearStatus` -/

@[simp] theorem State.clearStatus_par (v : Word) : (s.clearStatus v).par = s.par := rfl
@[simp] theorem State.clearStatus_cmd (v : Word) : (s.clearStatus v).cmd = s.cmd := rfl
@[simp] theorem State.clearStatus_busy (v : Word) : (s.clearStatus v).busy = s.busy := rfl
@[simp] theorem State.clearStatus_done (v : Word) : (s.clearStatus v).done = (s.done && !v.getLsbD 1) := rfl
@[simp] theorem State.clearStatus_err (v : Word) : (s.clearStatus v).err = (s.err && !v.getLsbD 2) := rfl
@[simp] theorem State.clearStatus_wrbusy (v : Word) : (s.clearStatus v).wrbusy = (s.wrbusy && !v.getLsbD 3) := rfl
@[simp] theorem State.clearStatus_errcode (v : Word) : (s.clearStatus v).errcode = s.errcode := rfl
@[simp] theorem State.clearStatus_simple (v : Word) : (s.clearStatus v).simple = s.simple := rfl
@[simp] theorem State.clearStatus_doneIe (v : Word) : (s.clearStatus v).doneIe = s.doneIe := rfl
@[simp] theorem State.clearStatus_errIe (v : Word) : (s.clearStatus v).errIe = s.errIe := rfl
@[simp] theorem State.clearStatus_bufSel (v : Word) : (s.clearStatus v).bufSel = s.bufSel := rfl
@[simp] theorem State.clearStatus_bufAddr (v : Word) : (s.clearStatus v).bufAddr = s.bufAddr := rfl
@[simp] theorem State.clearStatus_inLen (v : Word) : (s.clearStatus v).inLen = s.inLen := rfl
@[simp] theorem State.clearStatus_outLen (v : Word) : (s.clearStatus v).outLen = s.outLen := rfl
@[simp] theorem State.clearStatus_saltLen (v : Word) : (s.clearStatus v).saltLen = s.saltLen := rfl
@[simp] theorem State.clearStatus_passLen (v : Word) : (s.clearStatus v).passLen = s.passLen := rfl
@[simp] theorem State.clearStatus_mult (v : Word) : (s.clearStatus v).mult = s.mult := rfl
@[simp] theorem State.clearStatus_vecSize (v : Word) : (s.clearStatus v).vecSize = s.vecSize := rfl
@[simp] theorem State.clearStatus_ivalLo (v : Word) : (s.clearStatus v).ivalLo = s.ivalLo := rfl
@[simp] theorem State.clearStatus_ivalHi (v : Word) : (s.clearStatus v).ivalHi = s.ivalHi := rfl
@[simp] theorem State.clearStatus_keyLen (v : Word) : (s.clearStatus v).keyLen = s.keyLen := rfl
@[simp] theorem State.clearStatus_chunkId (v : Word) : (s.clearStatus v).chunkId = s.chunkId := rfl
@[simp] theorem State.clearStatus_rand (v : Word) : (s.clearStatus v).rand = s.rand := rfl
@[simp] theorem State.clearStatus_crcInit (v : Word) : (s.clearStatus v).crcInit = s.crcInit := rfl
@[simp] theorem State.clearStatus_crcRaw (v : Word) : (s.clearStatus v).crcRaw = s.crcRaw := rfl
@[simp] theorem State.clearStatus_hType (v : Word) : (s.clearStatus v).hType = s.hType := rfl
@[simp] theorem State.clearStatus_hOsize (v : Word) : (s.clearStatus v).hOsize = s.hOsize := rfl
@[simp] theorem State.clearStatus_hEsize (v : Word) : (s.clearStatus v).hEsize = s.hEsize := rfl
@[simp] theorem State.clearStatus_hCrc (v : Word) : (s.clearStatus v).hCrc = s.hCrc := rfl
@[simp] theorem State.clearStatus_hShift (v : Word) : (s.clearStatus v).hShift = s.hShift := rfl
@[simp] theorem State.clearStatus_mpBase (v : Word) : (s.clearStatus v).mpBase = s.mpBase := rfl
@[simp] theorem State.clearStatus_mpExp (v : Word) : (s.clearStatus v).mpExp = s.mpExp := rfl
@[simp] theorem State.clearStatus_mpMod (v : Word) : (s.clearStatus v).mpMod = s.mpMod := rfl
@[simp] theorem State.clearStatus_mpRes (v : Word) : (s.clearStatus v).mpRes = s.mpRes := rfl
@[simp] theorem State.clearStatus_prNLo (v : Word) : (s.clearStatus v).prNLo = s.prNLo := rfl
@[simp] theorem State.clearStatus_prNHi (v : Word) : (s.clearStatus v).prNHi = s.prNHi := rfl
@[simp] theorem State.clearStatus_prRes (v : Word) : (s.clearStatus v).prRes = s.prRes := rfl
@[simp] theorem State.clearStatus_ibuf (v : Word) : (s.clearStatus v).ibuf = s.ibuf := rfl
@[simp] theorem State.clearStatus_obuf (v : Word) : (s.clearStatus v).obuf = s.obuf := rfl
@[simp] theorem State.clearStatus_salt (v : Word) : (s.clearStatus v).salt = s.salt := rfl
@[simp] theorem State.clearStatus_pass (v : Word) : (s.clearStatus v).pass = s.pass := rfl
@[simp] theorem State.clearStatus_iv (v : Word) : (s.clearStatus v).iv = s.iv := rfl
@[simp] theorem State.clearStatus_keyn (v : Word) : (s.clearStatus v).keyn = s.keyn := rfl
@[simp] theorem State.clearStatus_keyx (v : Word) : (s.clearStatus v).keyx = s.keyx := rfl
@[simp] theorem State.clearStatus_rst (v : Word) : (s.clearStatus v).rst = s.rst := rfl
@[simp] theorem State.clearStatus_rdata (v : Word) : (s.clearStatus v).rdata = s.rdata := rfl
@[simp] theorem State.clearStatus_turns (v : Word) : (s.clearStatus v).turns = s.turns := rfl
@[simp] theorem State.clearStatus_draw (v : Word) : (s.clearStatus v).draw = s.draw := rfl

end Sys2Proof.Machine
end

