-- ==== Sys2Proof/Laws/Commit.lean ====
section
/-! SUPPORT. What each shared operation can do, said once: the two commits, the evaluations of the commands, the commands, the
turns of a run. -/

namespace Sys2Proof.Machine

/-! ### Commits -/

/-- A commit answers a next state: the evaluated state with the success flags, or the old one with a code. -/
theorem commit_eq_next {s t : State} {r : Except ErrCode State} :
    commit s r = .next t ↔ (∃ u, r = .ok u ∧ t = u.succeed) ∨ ∃ e, r = .error e ∧ t = s.fail e := by
  cases r <;> simp [commit, eq_comm]

theorem commitOutput_eq_next {s t : State} {r : Except ErrCode State} :
    commitOutput s r = .next t ↔ (∃ u, r = .ok u ∧ t = u.succeed) ∨ ∃ e, r = .error e ∧ t = (s.fail e).dropOutput := by
  cases r <;> simp [commitOutput, eq_comm]

theorem commit_ok {s u : State} : commit s (.ok u) = .next u.succeed := rfl
theorem commit_error {s : State} {e : ErrCode} : commit s (.error e) = .next (s.fail e) := rfl
theorem commitOutput_ok {s u : State} : commitOutput s (.ok u) = .next u.succeed := rfl
theorem commitOutput_error {s : State} {e : ErrCode} : commitOutput s (.error e) = .next (s.fail e).dropOutput := rfl

theorem errNumber_ne_zero (e : ErrCode) : errNumber e ≠ 0#3 := by cases e <;> decide

/-! ### Evaluations: when each succeeds, and with what state -/

theorem evalCrc_ok_iff {start : Word} {s u : State} :
    evalCrc start s = .ok u ↔
      s.inLen.toNat ≤ s.par.dbuf ∧ u = { s with crcRaw := crcUpdate start (s.ibufBytes 0 s.inLen.toNat) } := by
  unfold evalCrc
  split
  · simp; omega
  · simp [eq_comm]; omega

theorem evalCrc_error_iff {start : Word} {s : State} {e : ErrCode} :
    evalCrc start s = .error e ↔ s.par.dbuf < s.inLen.toNat ∧ e = .resource := by
  unfold evalCrc
  split <;> simp_all [eq_comm]

theorem evalModpow_ok_iff {s u : State} :
    evalModpow s = .ok u ↔
      s.mpMod ≠ 0#32 ∧
        u = { s with mpRes := BitVec.ofNat 32 (modpowAcc s.mpBase.toNat s.mpMod.toNat s.mpExp.toNat) } := by
  unfold evalModpow modpowF
  by_cases h : s.mpMod = 0#32 <;> simp [h, eq_comm]

theorem evalModpow_error_iff {s : State} {e : ErrCode} :
    evalModpow s = .error e ↔ s.mpMod = 0#32 ∧ e = .param := by
  unfold evalModpow modpowF
  by_cases h : s.mpMod = 0#32 <;> simp [h, eq_comm]

theorem evalIsprime_ok_iff {s u : State} :
    evalIsprime s = .ok u ↔
      3 ≤ s.prN.toNat ∧ s.prN.toNat % 2 = 1 ∧
        u = { s with prRes := noOddDivisor s.prN.toNat s.prN.toNat 3 } := by
  unfold evalIsprime isPrimeF
  by_cases h : s.prN.toNat < 3
  · simp [h]
  · by_cases h2 : s.prN.toNat % 2 = 0
    · simp [h, h2]
    · simp [h, show s.prN.toNat % 2 = 1 by omega, eq_comm]; omega

theorem evalIsprime_error_iff {s : State} {e : ErrCode} :
    evalIsprime s = .error e ↔ (s.prN.toNat < 3 ∨ s.prN.toNat % 2 = 0) ∧ e = .param := by
  unfold evalIsprime isPrimeF
  by_cases h : s.prN.toNat < 3
  · simp [h, eq_comm]
  · by_cases h2 : s.prN.toNat % 2 = 0 <;> simp [h, h2, eq_comm]

/-- The checks of KS_DERIVE pass exactly when none of the five conditions holds, and then give the product. -/
theorem ksChecks_ok_iff {s : State} {vs : Nat} :
    ksChecks s = .ok vs ↔
      (s.saltLen ≠ 0#32 ∧ s.saltLen.toNat ≤ s.par.saltMax) ∧ (s.passLen ≠ 0#32 ∧ s.passLen.toNat ≤ s.par.passMax) ∧
        s.passBytes.contains 0#8 = false ∧ s.par.minMult ≤ s.multiplier ∧
        s.saltLen.toNat * s.passLen.toNat * s.multiplier ≤ s.par.vecMax ∧
        vs = s.saltLen.toNat * s.passLen.toNat * s.multiplier := by
  unfold ksChecks
  split
  · rename_i h; simp only [reduceCtorEq, false_iff]; rintro ⟨⟨a, b⟩, -⟩; rcases h with h | h <;> [exact a h; omega]
  · rename_i h; push Not at h
    split
    · rename_i h2; simp only [reduceCtorEq, false_iff]; rintro ⟨-, ⟨a, b⟩, -⟩; rcases h2 with h2 | h2 <;> [exact a h2; omega]
    · rename_i h2; push Not at h2
      split
      · rename_i h3; simp only [reduceCtorEq, false_iff, h3]; simp
      · rename_i h3
        split
        · simp only [reduceCtorEq, false_iff]; rintro ⟨-, -, -, a, -⟩; omega
        · split
          · simp only [reduceCtorEq, false_iff]; rintro ⟨-, -, -, -, a, -⟩; omega
          · simp only [Except.ok.injEq, eq_comm (b := vs)]
            simp only [h, h2, ne_eq, not_false_eq_true, true_and, and_self, Bool.eq_false_of_not_eq_true h3]
            constructor
            · intro e; exact ⟨by omega, by omega, e⟩
            · intro e; exact e.2.2

theorem ksChecks_error {s : State} {e : ErrCode} (h : ksChecks s = .error e) : e = .param ∨ e = .resource := by
  unfold ksChecks at h
  repeat' split at h
  all_goals cases h <;> simp

/-- What a successful KS_DERIVE stores. -/
theorem evalKsDerive_ok_iff {s u : State} :
    evalKsDerive s = .ok u ↔
      ∃ vs, ksChecks s = .ok vs ∧
        u = s.storeSchedule (ivWords s.par.bits s.saltBytes s.passBytes vs)
          (ivalOf (initialSum (iSalt s.par.bits s.saltBytes) s.passBytes)
            (ivWords s.par.bits s.saltBytes s.passBytes vs)) := by
  unfold evalKsDerive
  cases h : ksChecks s <;> simp [eq_comm]

theorem evalKsDerive_error_iff {s : State} {e : ErrCode} : evalKsDerive s = .error e ↔ ksChecks s = .error e := by
  unfold evalKsDerive
  cases h : ksChecks s <;> simp

@[simp] theorem ivWords_length (bits : Nat) (salt pw : List Byte) (vs : Nat) : (ivWords bits salt pw vs).length = vs := by
  simp [ivWords]

@[simp] theorem processFrom_length (iv : Nat → Word) (vs : Nat) (ival : DWord) (crc id size : Word) (i : Nat)
    (block : List Byte) : (processFrom iv vs ival crc id size i block).length = block.length := by
  induction block generalizing i with
  | nil => rfl
  | cons b bs ih => simp [processFrom, ih]

@[simp] theorem processF_length (iv : Nat → Word) (vs : Nat) (ival : DWord) (crc id : Word) (block : List Byte) :
    (processF iv vs ival crc id block).length = block.length := by simp [processF]

@[simp] theorem State.process_length (s : State) (crc : Word) (block : List Byte) :
    (s.process crc block).length = block.length := by simp [State.process]

@[simp] theorem State.ibufBytes_length (s : State) (i n : Nat) : (s.ibufBytes i n).length = n := by
  simp [State.ibufBytes]

@[simp] theorem hdrBytes_length (p : Params) (t : Byte) (os es c sh : Word) : (hdrBytes p t os es c sh).length = 20 := rfl

/-- What each byte of `process_f` is. -/
theorem processFrom_getElem (iv : Nat → Word) (vs : Nat) (ival : DWord) (crc id size : Word) (i : Nat)
    (block : List Byte) (k : Nat) (h : k < (processFrom iv vs ival crc id size i block).length) :
    (processFrom iv vs ival crc id size i block)[k] =
      processByte ival crc (shl32 (iv ((i + k) % vs)) (shiftAmount id size (i + k)))
        (block[k]'(by simpa using h)) := by
  induction block generalizing i k with
  | nil => simp at h
  | cons b bs ih =>
    cases k with
    | zero => simp [processFrom]
    | succ k => simp only [processFrom, List.getElem_cons_succ, ih, show i + 1 + k = i + (k + 1) by omega]

theorem evalXform_ok_iff {s u : State} :
    evalXform s = .ok u ↔
      s.vecSize ≠ 0#32 ∧ s.inLen.toNat ≤ s.par.bufferSize ∧
        u = s.storeOutput (s.process s.hCrc (s.ibufBytes 0 s.inLen.toNat)) := by
  unfold evalXform
  by_cases h : s.vecSize = 0#32
  · simp [h]
  · by_cases h2 : s.par.bufferSize < s.inLen.toNat
    · simp [h, h2]
    · rw [if_neg h, if_neg h2]; simp [h, Nat.le_of_not_lt h2, eq_comm]

theorem evalXform_error {s : State} {e : ErrCode} (h : evalXform s = .error e) : e = .uninit ∨ e = .resource := by
  unfold evalXform at h
  repeat' split at h
  all_goals cases h <;> simp

theorem evalHdrPack_ok_iff {s u : State} :
    evalHdrPack s = .ok u ↔
      validType s.par s.hType = true ∧
        u = s.storeOutput (hdrBytes s.par s.hType s.hOsize s.hEsize s.hCrc s.hShift) := by
  unfold evalHdrPack
  cases h : validType s.par s.hType <;> simp [eq_comm]

theorem evalHdrPack_error {s : State} {e : ErrCode} (h : evalHdrPack s = .error e) : e = .param := by
  unfold evalHdrPack at h
  split at h <;> cases h
  rfl

theorem checkHeader_ok_iff {s : State} {h : Header} :
    checkHeader s = .ok h ↔
      20 ≤ s.inLen.toNat ∧ s.inputHeader.signed s.par = true ∧ validType s.par s.inputHeader.type = true ∧
        h = s.inputHeader := by
  unfold checkHeader
  have h20 : Config.hdrLen = 20 := rfl
  split
  · simp; omega
  · rename_i h1
    split
    · rename_i h2; simp at h2; simp [h2]
    · rename_i h2; simp at h2
      split
      · rename_i h3; simp at h3; simp [h3]
      · rename_i h3; simp at h3; simp [h2, h3, eq_comm]; omega

theorem checkHeader_error {s : State} {e : ErrCode} (h : checkHeader s = .error e) : e = .format := by
  unfold checkHeader at h
  repeat' split at h
  all_goals cases h <;> simp

theorem evalHdrUnpack_ok_iff {s u : State} :
    evalHdrUnpack s = .ok u ↔ ∃ h, checkHeader s = .ok h ∧ u = s.storeHeader h := by
  unfold evalHdrUnpack
  cases h : checkHeader s <;> simp [eq_comm]

theorem evalHdrUnpack_error {s : State} {e : ErrCode} (h : evalHdrUnpack s = .error e) : e = .format := by
  unfold evalHdrUnpack at h
  split at h
  · rename_i h1; simp at h; subst h; exact checkHeader_error h1
  · simp at h

theorem encChecks_error {s : State} {e : ErrCode} (h : encChecks s = .error e) :
    e = .uninit ∨ e = .param ∨ e = .resource := by
  unfold encChecks at h
  repeat' split at h
  all_goals cases h <;> simp

theorem State.asymEnc_error {s : State} {crc : Word} {t : List Byte} {e : ErrCode} (h : s.asymEnc crc t = .error e) :
    e = .param := by
  unfold State.asymEnc at h
  split at h <;> cases h
  rfl

theorem State.asymEnc_length {s : State} {crc field : Word} {t c : List Byte} (h : s.asymEnc crc t = .ok (c, field)) :
    c.length = t.length := by
  unfold State.asymEnc at h
  split at h
  · simp at h
  · simp only [Except.ok.injEq, Prod.mk.injEq] at h; rw [← h.1]; simp

theorem State.encShift_error {s : State} {crc : Word} {t : List Byte} {e : ErrCode} (h : s.encShift crc t = .error e) :
    e = .param := by
  unfold State.encShift at h
  split at h
  · simp at h
  · exact State.asymEnc_error h

theorem State.encShift_length {s : State} {crc field : Word} {t c : List Byte} (h : s.encShift crc t = .ok (c, field)) :
    c.length = t.length := by
  unfold State.encShift at h
  split at h
  · simp only [Except.ok.injEq, Prod.mk.injEq] at h; rw [← h.1]
  · exact State.asymEnc_length h

theorem encChecks_ok_iff {s : State} :
    encChecks s = .ok () ↔
      s.vecSize ≠ 0#32 ∧ validType s.par s.hType = true ∧ (s.simple = true → s.hType = Config.encBinary) ∧
        s.inLen.toNat ≤ s.par.bufferSize ∧ (s.keyLen ≠ 0#32 → s.keyLen.toNat ≤ s.par.keyMax) := by
  unfold encChecks
  split
  · simp_all
  · split
    · simp_all
    · split
      · simp_all
      · split
        · simp; intros; omega
        · split
          · rename_i h; simp only [reduceCtorEq, false_iff]; rintro ⟨-, -, -, -, a⟩; have := a h.1; omega
          · rename_i h; simp_all

/-- What a successful ENC_CHUNK stores. -/
theorem evalEncChunk_ok_iff {s u : State} :
    evalEncChunk s = .ok u ↔
      encChecks s = .ok () ∧ ∃ c field,
        s.encShift (crc32 (s.ibufBytes 0 s.inLen.toNat))
            (s.process (crc32 (s.ibufBytes 0 s.inLen.toNat)) (s.ibufBytes 0 s.inLen.toNat)) = .ok (c, field) ∧
          u = s.storeChunk (crc32 (s.ibufBytes 0 s.inLen.toNat)) field c := by
  unfold evalEncChunk
  cases h : encChecks s with
  | error e => simp
  | ok x =>
    cases x
    simp only [true_and]
    cases h2 : s.encShift (crc32 (s.ibufBytes 0 s.inLen.toNat))
      (s.process (crc32 (s.ibufBytes 0 s.inLen.toNat)) (s.ibufBytes 0 s.inLen.toNat)) with
    | error e => simp
    | ok x => obtain ⟨c, f⟩ := x; simp [eq_comm]

theorem evalEncChunk_error {s : State} {e : ErrCode} (h : evalEncChunk s = .error e) :
    e = .uninit ∨ e = .param ∨ e = .resource := by
  unfold evalEncChunk at h
  split at h
  · rename_i h1; simp at h; subst h; exact encChecks_error h1
  · simp only at h
    split at h
    · rename_i h2; simp at h; subst h; exact .inr (.inl (State.encShift_error h2))
    · simp at h

theorem decChecks_ok_iff {s : State} {h : Header} :
    decChecks s = .ok h ↔
      s.vecSize ≠ 0#32 ∧ s.inLen.toNat ≤ s.par.dbuf ∧ checkHeader s = .ok h ∧
        (s.simple = true → h.type = Config.encBinary) ∧ h.osize.toNat ≤ s.par.bufferSize ∧
        h.osize.toNat ≤ s.inLen.toNat - 20 := by
  unfold decChecks
  split
  · simp_all
  · split
    · simp; intros; omega
    · cases h1 : checkHeader s with
      | error e => simp
      | ok k =>
        simp only [Except.ok.injEq]
        by_cases h2 : (s.simple && k.type != Config.encBinary) = true
        · rw [if_pos h2]
          simp at h2; simp only [reduceCtorEq, false_iff]
          rintro ⟨-, -, rfl, a, -⟩; exact h2.2 (a h2.1)
        · rw [if_neg h2]
          simp at h2
          by_cases h3 : s.par.bufferSize < k.osize.toNat
          · rw [if_pos h3]; simp only [reduceCtorEq, false_iff]; rintro ⟨-, -, rfl, -, a, -⟩; omega
          · rw [if_neg h3]
            by_cases h4 : s.inLen.toNat - Config.hdrLen < k.osize.toNat
            · rw [if_pos h4]; simp only [reduceCtorEq, false_iff]; simp only [Config.hdrLen] at h4
              rintro ⟨-, -, rfl, -, -, a⟩; omega
            · rw [if_neg h4]; simp only [Config.hdrLen] at h4; simp only [Except.ok.injEq]
              constructor
              · rintro rfl; exact ⟨by assumption, by omega, rfl, h2, by omega, by omega⟩
              · rintro ⟨-, -, rfl, -⟩; rfl

theorem decChecks_error {s : State} {e : ErrCode} (h : decChecks s = .error e) :
    e = .uninit ∨ e = .resource ∨ e = .format ∨ e = .param := by
  unfold decChecks at h
  split at h
  · cases h; simp
  · split at h
    · cases h; simp
    · split at h
      · rename_i h1; simp at h; subst h; have := checkHeader_error h1; simp [this]
      · repeat' split at h
        all_goals cases h <;> simp

theorem State.decShift_length {s : State} {field : Word} {p q : List Byte} (h : s.decShift field p = .ok q) :
    q.length = p.length := by
  unfold State.decShift State.asymDec at h
  repeat' split at h
  all_goals simp at h
  all_goals subst h; simp

theorem State.decShift_error {s : State} {field : Word} {p : List Byte} {e : ErrCode} (h : s.decShift field p = .error e) :
    e = .uninit ∨ e = .param := by
  unfold State.decShift State.asymDec at h
  repeat' split at h
  all_goals cases h <;> simp

/-- What a successful DEC_CHUNK stores. -/
theorem evalDecChunk_ok_iff {s u : State} :
    evalDecChunk s = .ok u ↔
      ∃ h q, decChecks s = .ok h ∧ s.decShift h.shift (s.ibufBytes 20 h.osize.toNat) = .ok q ∧
        (s.simple = true ∨ crc32 (s.process h.crc q) = h.crc) ∧
        u = (s.storeOutput (s.process h.crc q)).storeHeader h := by
  unfold evalDecChunk
  cases h1 : decChecks s with
  | error e => simp
  | ok h =>
    simp only [Config.hdrLen]
    cases h2 : s.decShift h.shift (s.ibufBytes 20 h.osize.toNat) with
    | error e =>
      simp only [reduceCtorEq, Except.ok.injEq, false_iff]
      rintro ⟨k, q, rfl, h3, -⟩; rw [h2] at h3; cases h3
    | ok q =>
      simp only
      constructor
      · intro h3
        split at h3
        · cases h3
        · rename_i h4
          refine ⟨h, q, rfl, h2, ?_, by simpa [eq_comm] using h3⟩
          simp at h4
          cases hs : s.simple <;> simp_all
      · rintro ⟨k, q', h3, h4, h5, rfl⟩
        cases h3
        rw [h2] at h4; cases h4
        rw [if_neg]
        rcases h5 with h5 | h5 <;> simp [h5]

theorem evalDecChunk_error {s : State} {e : ErrCode} (h : evalDecChunk s = .error e) :
    e = .uninit ∨ e = .resource ∨ e = .format ∨ e = .param ∨ e = .integrity := by
  unfold evalDecChunk at h
  split at h
  · rename_i h1; simp at h; subst h
    rcases decChecks_error h1 with h | h | h | h <;> simp [h]
  · split at h
    · rename_i h1; simp at h; subst h
      rcases State.decShift_error h1 with h | h <;> simp [h]
    · simp only at h
      split at h <;> cases h
      simp

/-! ### The commands, all at once -/

/-- What the evaluation of each command is: the `Except` that its meaning commits. -/
def evalOf : Instr → State → Except ErrCode State
  | .nop, s => .ok s
  | .cleanup, s => .ok s.cleanup
  | .crcRun, s => evalCrc s.crcInit s
  | .crcCont, s => evalCrc s.crcRaw s
  | .modpow, s => evalModpow s
  | .isprime, s => evalIsprime s
  | .ksDerive, s => evalKsDerive s
  | .xform, s => evalXform s
  | .hdrPack, s => evalHdrPack s
  | .hdrUnpack, s => evalHdrUnpack s
  | .encChunk, s => evalEncChunk s
  | .decChunk, s => evalDecChunk s

/-- Every meaning commits its evaluation; only the failure of the four output commands drops the output. -/
theorem exec_eq_commit (i : Instr) (s : State) :
    exec i s = if dropsOutput i then commitOutput s (evalOf i s) else commit s (evalOf i s) := by
  cases i <;> rfl

/-- All that a command can do: succeed with its evaluation, or fail with a code. -/
theorem exec_cases {i : Instr} {s t : State} (h : exec i s = .next t) :
    (∃ u, evalOf i s = .ok u ∧ t = u.succeed) ∨
      ∃ e, evalOf i s = .error e ∧ t = if dropsOutput i then (s.fail e).dropOutput else s.fail e := by
  rw [exec_eq_commit] at h
  split at h
  · rename_i hd; simp only [hd, if_true]; exact commitOutput_eq_next.1 h
  · rename_i hd; simp only [hd]; exact commit_eq_next.1 h

theorem exec_of_ok {i : Instr} {s u : State} (h : evalOf i s = .ok u) : exec i s = .next u.succeed := by
  rw [exec_eq_commit, h]; cases dropsOutput i <;> rfl

theorem exec_of_error {i : Instr} {s : State} {e : ErrCode} (h : evalOf i s = .error e) :
    exec i s = .next (if dropsOutput i then (s.fail e).dropOutput else s.fail e) := by
  rw [exec_eq_commit, h]; cases dropsOutput i <;> rfl

/-- The codes an evaluation can give are those of the command's row. -/
theorem evalOf_error {i : Instr} {s : State} {e : ErrCode} (h : evalOf i s = .error e) :
    errNumber e ∈ failureCodes i := by
  cases i <;> simp only [evalOf, reduceCtorEq] at h
  · rw [(evalCrc_error_iff.1 h).2]; decide
  · rw [(evalCrc_error_iff.1 h).2]; decide
  · rw [(evalModpow_error_iff.1 h).2]; decide
  · rw [(evalIsprime_error_iff.1 h).2]; decide
  · rcases ksChecks_error (evalKsDerive_error_iff.1 h) with rfl | rfl <;> decide
  · rcases evalXform_error h with rfl | rfl <;> decide
  · rw [evalHdrPack_error h]; decide
  · rw [evalHdrUnpack_error h]; decide
  · rcases evalEncChunk_error h with rfl | rfl | rfl <;> decide
  · rcases evalDecChunk_error h with rfl | rfl | rfl | rfl | rfl <;> decide

/-! ### Turns -/

/-- What a step is, turn by turn. -/
theorem step_cases (s : State) :
    (s.turns = [] ∧ s.busy = true ∧ s.rst = false ∧ step s = commitStep s.advance) ∨
    (s.turns = [] ∧ (s.busy = false ∨ s.rst = true) ∧ step s = .next s) ∨
    (∃ t rest, s.turns = .host t :: rest ∧ step s = hostTurn t s.advance) ∨
    (∃ rest, s.turns = .sequencer :: rest ∧ step s = sequencerTurn s.advance) ∨
    (∃ rest, s.turns = .assertReset :: rest ∧ step s = assertTurn s.advance) ∨
    (∃ rest, s.turns = .releaseReset :: rest ∧ step s = releaseTurn s.advance) := by
  unfold step runTurn
  cases h : s.turns with
  | nil =>
    cases hb : s.busy <;> cases hr : s.rst <;> simp
  | cons u rest => cases u <;> simp

end Sys2Proof.Machine
end

