-- ==== Sys2Proof/Laws/PerInstr.lean ====
section
/-! SUPPORT. Statements made of every instruction, one lemma per constructor. -/

namespace Sys2Proof.Laws.DecodeEncode

/-- The word of an instruction decodes to the instruction, and has a zero field of zeros (R91, R93). -/
def Statement (i : Instr) : Prop := decode (encode i) = .ok i ∧ zeroField (encode i) = 0#24

theorem nop : Statement .nop := by unfold Statement; decide
theorem cleanup : Statement .cleanup := by unfold Statement; decide
theorem crcRun : Statement .crcRun := by unfold Statement; decide
theorem crcCont : Statement .crcCont := by unfold Statement; decide
theorem modpow : Statement .modpow := by unfold Statement; decide
theorem isprime : Statement .isprime := by unfold Statement; decide
theorem ksDerive : Statement .ksDerive := by unfold Statement; decide
theorem xform : Statement .xform := by unfold Statement; decide
theorem hdrPack : Statement .hdrPack := by unfold Statement; decide
theorem hdrUnpack : Statement .hdrUnpack := by unfold Statement; decide
theorem encChunk : Statement .encChunk := by unfold Statement; decide
theorem decChunk : Statement .decChunk := by unfold Statement; decide

end Sys2Proof.Laws.DecodeEncode
end

