-- ==== Sys2Proof/Laws/Port.lean ====
section
/-! SUPPORT. The laws of the host port: the register map, the buffer port memory by memory, the bits of a flag. -/

namespace Sys2Proof.Machine

/-- The register map is read back from the offsets. -/
@[simp] theorem regAt_regIndex (r : Reg) : regAt (regIndex r) = some r := by cases r <;> decide

theorem regIndex_inj {r r' : Reg} (h : regIndex r = regIndex r') : r = r' := by
  have := congrArg regAt h
  simpa using this

/-- What a read of an idle machine does, register by register. -/
theorem State.rd_idle {s : State} (hb : s.busy = false) (r : Reg) :
    s.rd (regIndex r) = { s.readEffect r with rdata := some (s.readReg r) } := by
  simp [State.rd, State.readPort, hb]

/-- What a write to an idle machine does, register by register. -/
theorem State.wr_idle {s : State} (hb : s.busy = false) (r : Reg) (v : Word) :
    s.wr (regIndex r) v = s.writeReg r v := by
  simp [State.wr, hb]

theorem State.wr_busy {s : State} (hb : s.busy = true) (index : BitVec 6) (v : Word) :
    s.wr index v = { s with wrbusy := true } := by
  simp [State.wr, hb]

/-- The buffer port on the memory it selects. -/
theorem State.bufData_of {s : State} {b : Buf} (h : bufOf s.bufSel = some b) :
    s.bufData = if s.bufAddr.toNat < s.readable b then s.element b s.bufAddr.toNat else 0#32 := by
  simp only [State.bufData, h]

theorem State.bufData_of_none {s : State} (h : bufOf s.bufSel = none) : s.bufData = 0#32 := by
  simp only [State.bufData, h]

theorem State.storeData_of {s : State} {b : Buf} (h : bufOf s.bufSel = some b) (v : Word) :
    s.storeData v = if s.bufAddr.toNat < s.par.capacity b then s.storeElement b s.bufAddr.toNat v else s := by
  simp only [State.storeData, h]

theorem State.storeData_of_none {s : State} (h : bufOf s.bufSel = none) (v : Word) : s.storeData v = s := by
  simp only [State.storeData, h]

/-- Every memory is selected by its number. -/
@[simp] theorem bufOf_bufNumber (b : Buf) : bufOf (bufNumber b) = some b := by cases b <;> decide

/-- The one bit a flag puts into a register. -/
theorem flagAt_getLsbD (b : Bool) (k n : Nat) (hk : k < 32) : (flagAt b k).getLsbD n = (b && decide (n = k)) := by
  cases b
  · simp [flagAt]
  · simp only [flagAt, BitVec.getLsbD_shiftLeft, Bool.true_and]
    by_cases h : n = k
    · subst h; simp [hk]
    · by_cases h2 : n < k
      · simp [h2, h]
      · simp [h2, h]; omega

end Sys2Proof.Machine
end

