-- ==== Sys2Proof/Laws/Written.lean ====
section
/-! SUPPORT. What it is worth that an element has been written: its reading does not depend on a free value. -/

namespace Sys2Proof.Machine

/-- A written element reads the same whatever the free values are. -/
theorem Memory.read_of_written {w : Nat} {m : Memory w} {k : Nat} (h : m.written k = true) (b : Buf) (d d' : Nat) :
    m.read b d k = m.read b d' k := by
  unfold Memory.written at h
  unfold Memory.read Memory.unlisted
  cases hz : m.zeroed <;> simp [hz] at h ⊢
  obtain ⟨x, hx⟩ := Option.isSome_iff_exists.1 h
  simp [hx]

/-- So does a range of written elements. -/
theorem Memory.readRange_of_written {w : Nat} {m : Memory w} {n : Nat} (h : m.writtenTo n) (b : Buf) (d d' i k : Nat)
    (hk : i + k ≤ n) : m.readRange b d i k = m.readRange b d' i k := by
  apply List.ext_getElem
  · simp
  · intro j h1 h2
    simp only [Memory.readRange_length] at h1
    rw [Memory.readRange_getElem, Memory.readRange_getElem]
    exact Memory.read_of_written (h _ (by omega)) b d d'

/-- A range write has written its range. -/
theorem Memory.writtenTo_writeRange {w : Nat} (m : Memory w) (vs : List (BitVec w)) (n : Nat) (h : n ≤ vs.length) :
    (m.writeRange 0 vs).writtenTo n := by
  intro k hk
  unfold Memory.written
  by_cases hz : m.zeroed = true
  · simp [Memory.writeRange, hz]
  · have h1 := lookupCell_filter_index (fun j => decide (j < 0)) k m.cells
    have h2 := lookupCell_cellsFrom_filter m.lists 0 k vs
    simp only [Memory.writeRange, lookupCell_append, h1, h2]
    have : k < vs.length := by omega
    simp [this, Memory.lists, hz]

/-- What was written stays written under a write. -/
theorem Memory.written_write {w : Nat} {m : Memory w} {k : Nat} (h : m.written k = true) (i : Nat) (v : BitVec w) :
    (m.write i v).written k = true := by
  unfold Memory.written at *
  by_cases hz : m.zeroed = true
  · simp [Memory.write, hz]
  · have hl : m.lists v = true := by simp [Memory.lists, hz]
    simp only [Memory.write, hl, if_true, lookupCell_insertCell]
    split
    · simp
    · simpa using h

end Sys2Proof.Machine
end

