-- ==== Sys2Proof/Tests/Slice0.lean ====
section
/-! SUPPORT. Tests: the well-formedness checks, the decoder on words written out from the spec's table, one step of each
command on the spec's own vectors (95_test_vectors.md), and for each statement with hypotheses a witness that meets them. -/

namespace Sys2Proof.Tests

open Sys2Proof.Machine

/-! ## Well-formedness: one ill-formed term for each check -/

theorem test_wf_offset_misaligned : (Stmt.wrAt 0x92 0#32).wellFormed = false := by decide
theorem test_wf_offset_outside : (Stmt.rdAt 0x100).wellFormed = false := by decide
theorem test_wf_offset_last : (Stmt.rdAt 0xFC).wellFormed = true := by decide
theorem test_wf_ldb_words : (Stmt.ldb .keyn 0#32 [1#8]).wellFormed = false := by decide
theorem test_wf_rdb_words : (Stmt.rdb .iv 0#32 1).wellFormed = false := by decide
theorem test_wf_ldw_bytes : (Stmt.ldw .salt 0#32 [1#32]).wellFormed = false := by decide
theorem test_wf_rdw_bytes : (Stmt.rdw .obuf 0#32 1).wellFormed = false := by decide
theorem test_wf_defaults : Config.defaults.wf = true := by decide
theorem test_wf_base64 : Params.wf { Config.defaults with encBase64 := 0x10#8 } = false := by decide
theorem test_wf_buffer_size : Params.wf { Config.defaults with bufferSize := 0 } = false := by decide
theorem test_wf_min_mult : Params.wf { Config.defaults with minMult := 0 } = false := by decide
theorem test_wf_default_mult : Params.wf { Config.defaults with minMult := 33 } = false := by decide
theorem test_wf_salt_max : Params.wf { Config.defaults with saltMax := 0 } = false := by decide
theorem test_wf_pass_none : Params.wf { Config.defaults with passMax := 0 } = false := by decide
theorem test_wf_pass_max : Params.wf { Config.defaults with passMax := 64 } = false := by decide
theorem test_wf_vec_none : Params.wf { Config.defaults with vecMax := 0 } = false := by decide
theorem test_wf_key_max : Params.wf { Config.defaults with keyMax := 0 } = false := by decide
theorem test_wf_buffer_fits : Params.wf { Config.defaults with bufferSize := 2 ^ 32 - 20 } = false := by decide
theorem test_wf_vec_fits : Params.wf { Config.defaults with vecMax := 2 ^ 32 } = false := by decide

/-! ## Decoding: the word of each row of R93, bit by bit, and words that are no command (R94) -/

theorem test_decode_nop : decode 0b00000000000000000000000000000000#32 = .ok .nop := by decide
theorem test_decode_cleanup : decode 0b00000000000000000000000000000001#32 = .ok .cleanup := by decide
theorem test_decode_crcRun : decode 0b00000000000000000000000000010000#32 = .ok .crcRun := by decide
theorem test_decode_crcCont : decode 0b00000000000000000000000000010001#32 = .ok .crcCont := by decide
theorem test_decode_modpow : decode 0b00000000000000000000000000100000#32 = .ok .modpow := by decide
theorem test_decode_isprime : decode 0b00000000000000000000000000100001#32 = .ok .isprime := by decide
theorem test_decode_ksDerive : decode 0b00000000000000000000000000110000#32 = .ok .ksDerive := by decide
theorem test_decode_xform : decode 0b00000000000000000000000001000000#32 = .ok .xform := by decide
theorem test_decode_hdrPack : decode 0b00000000000000000000000001010000#32 = .ok .hdrPack := by decide
theorem test_decode_hdrUnpack : decode 0b00000000000000000000000001010001#32 = .ok .hdrUnpack := by decide
theorem test_decode_encChunk : decode 0b00000000000000000000000001100000#32 = .ok .encChunk := by decide
theorem test_decode_decChunk : decode 0b00000000000000000000000001100001#32 = .ok .decChunk := by decide
theorem test_decode_unassigned : decode 0x00000002#32 = .error .unassignedOpcode := by decide
theorem test_decode_last_opcode : decode 0x000000FF#32 = .error .unassignedOpcode := by decide
theorem test_decode_zero_field_low : decode 0x00000110#32 = .error .zeroFieldNotZero := by decide
theorem test_decode_zero_field_high : decode 0x80000010#32 = .error .zeroFieldNotZero := by decide
theorem test_table_word : decodeTableWord 32 0x61 = some .decChunk := by decide
theorem test_table_word_illegal : decodeTableWord 32 0x62 = none := by decide

/-! ## Scripts: both outcomes of vector Q18, the write after the commit and before it -/

theorem test_script_q18_after : expandAll [.cmd .crcRun, .commitHere, .wr .inLen 7#32, .wait 0] =
    [.host (.wr 1#6 0x10#32), .sequencer, .host (.wr 10#6 7#32), .sequencer, .host (.rd 2#6)] := by decide

theorem test_script_q18_before : expandAll [.cmd .crcRun, .wr .inLen 7#32, .wait 1] =
    [.host (.wr 1#6 0x10#32), .host (.wr 10#6 7#32), .host (.rd 2#6), .sequencer, .host (.rd 2#6)] := by decide

/-! ## Small states -/

/-- The state a command leaves. -/
def after (i : Instr) (s : State) : State :=
  match exec i s with
  | .next t => t
  | .fault _ => s
  | .refused _ => s

theorem exec_after (i : Instr) (s : State) : exec i s = .next (after i s) := by
  unfold after
  cases h : evalOf i s with
  | ok u => rw [exec_of_ok h]
  | error e => rw [exec_of_error h]

/-- Bytes from index 0 of a memory nothing else has written. -/
def bytesAt0 (bs : List Byte) : Memory 8 := (Memory.unknown 8).writeRange 0 bs

/-- Words from index 0 of a memory nothing else has written. -/
def wordsAt0 (ws : List Word) : Memory 32 := (Memory.unknown 32).writeRange 0 ws

/-- The reset state with an input loaded. -/
def input (bs : List Byte) : State :=
  { State.reset with ibuf := bytesAt0 bs, inLen := BitVec.ofNat 32 bs.length }

/-- `"hello world"` (V5). -/
def hello : List Byte :=
  [0x68#8, 0x65#8, 0x6C#8, 0x6C#8, 0x6F#8, 0x20#8, 0x77#8, 0x6F#8, 0x72#8, 0x6C#8, 0x64#8]

/-- The first sixteen words and the `ival` of key schedule S-1 (V4), with an input loaded. Sixteen words serve inputs of up to sixteen
bytes as the whole schedule does. -/
def keyed (bs : List Byte) : State :=
  { input bs with
    vecSize := 16#32, ivalHi := 0x00000153#32, ivalLo := 0x61266518#32
    iv := wordsAt0
      [ 0xE2AA9C64#32, 0xDA3C0824#32, 0xDA3C0824#32, 0x7F0B7F4D#32, 0x5A652BA4#32, 0x83E19824#32, 0xC441A44D#32,
        0xE2AA9C64#32, 0xDA3C0824#32, 0xDA3C0824#32, 0x7F0B7F4D#32, 0x5A652BA4#32, 0x83E19824#32, 0xC441A44D#32,
        0xE2AA9C64#32, 0xDA3C0824#32 ] }

/-- The output bytes that the host can read. -/
def output (s : State) : List Byte := s.obuf.readRange .obuf s.draw 0 s.outLen.toNat

/-- The key material of V9 at index 0, with the given exponent. -/
def withKey (s : State) (e : Word) : State :=
  { s with keyLen := 2#32, keyn := wordsAt0 [323#32, 3233#32], keyx := wordsAt0 [e, e], chunkId := 2#32 }

/-- The key material of V9 with the given exponents, and chunk id 1: the entry used is at index 1 of two. The tests decrypt with 413 in
the place of the vector's 2753, to which it is congruent modulo 780, the least common multiple of 60 and 52 (3233 is 61 times 53). -/
def withKeys1 (s : State) (exponents : List Word) : State :=
  { s with keyLen := 2#32, keyn := wordsAt0 [323#32, 3233#32], keyx := wordsAt0 exponents, chunkId := 1#32 }

/-- `"hello world"` with chunk id 1, about to be encrypted (V8, E1). -/
def plainE1 : State := { keyed hello with chunkId := 1#32 }

/-- Chunk E1 (V8). -/
def chunkE1 : List Byte :=
  [ 0x4D#8, 0x43#8, 0x46#8, 0x10#8, 0x00#8, 0x00#8, 0x00#8, 0x0B#8, 0x00#8, 0x00#8, 0x00#8, 0x00#8, 0x0D#8, 0x4A#8,
    0x11#8, 0x85#8, 0x00#8, 0x00#8, 0x00#8, 0x00#8, 0x2B#8, 0x2E#8, 0x27#8, 0x27#8, 0x24#8, 0x73#8, 0x1C#8, 0x24#8,
    0x21#8, 0x27#8, 0x2F#8 ]

/-! ## One step of each command, on the spec's vectors -/

/-- The first command after reset runs, whichever it is. -/
theorem test_step_first (i : Instr) : step (State.reset.withFetchWord 32 (encode i).toNat)
    = exec i { State.reset with
        cmd := encode i, busy := true, draw := 1 } := by
  cases i <;> rfl

/-- NOP after reset leaves `STATUS = 0x00000002` (R210). -/
theorem test_nop : (after .nop State.reset).statusWord = 0x00000002#32 := by decide

/-- R211: the words are overwritten, not merely gated. -/
theorem test_cleanup : (after .cleanup (withKey plainE1 5#32)).ivWord 0 = 0#32
    ∧ (after .cleanup (withKey plainE1 5#32)).keyLen = 0#32 := by decide

/-- R113: the nine bytes `123456789`. -/
theorem test_crcRun : (after .crcRun (input
    [0x31#8, 0x32#8, 0x33#8, 0x34#8, 0x35#8, 0x36#8, 0x37#8, 0x38#8, 0x39#8])).crcRaw = 0x340BC6D9#32 := by
  decide +kernel

/-- R114: the last five of them after the first four. -/
theorem test_crcCont : (after .crcCont { input [0x35#8, 0x36#8, 0x37#8, 0x38#8, 0x39#8] with
    crcRaw := 0x641C1F5C#32 }).readReg .crcOut = 0xCBF43926#32 := by decide +kernel

/-- R126: 42 to the 5th modulo 323. -/
theorem test_modpow : (after .modpow { State.reset with
    mpBase := 42#32, mpExp := 5#32, mpMod := 323#32 }).mpRes = 264#32 := by decide +kernel

/-- R126: a product equal to the modulus is kept. -/
theorem test_modpow_kept : (after .modpow { State.reset with
    mpBase := 2#32, mpExp := 2#32, mpMod := 4#32 }).mpRes = 4#32 := by decide +kernel

/-- V3: 9 is composite, because the comparison with the square is inclusive. -/
theorem test_isprime_square : (after .isprime { State.reset with prNLo := 9#32, prRes := true }).prRes = false := by
  decide +kernel

/-- V3: 97 is prime. -/
theorem test_isprime : (after .isprime { State.reset with prNLo := 97#32 }).prRes = true := by decide +kernel

/-- A KS_DERIVE about to run on the given salt and password with multiplier 1. -/
def derive (salt pw : List Byte) : State :=
  { State.reset with
    salt := bytesAt0 salt, saltLen := BitVec.ofNat 32 salt.length
    pass := bytesAt0 pw, passLen := BitVec.ofNat 32 pw.length, mult := 1#32 }

/-- V4, S-6: the smallest schedule. -/
theorem test_ksDerive_smallest : (after .ksDerive (derive [0x41#8] [0x42#8])).ivWord 0 = 0x000009EA#32
    ∧ (after .ksDerive (derive [0x41#8] [0x42#8])).ival = 0x0000000000001086#64 := by decide +kernel

/-- V4, S-8: bytes above 127 are unsigned. -/
theorem test_ksDerive_unsigned :
    (after .ksDerive (derive [0x00#8, 0xFF#8] [0xFF#8, 0x01#8])).ivWord 3 = 0x00535A57#32
    ∧ (after .ksDerive (derive [0x00#8, 0xFF#8] [0xFF#8, 0x01#8])).ival = 0x000000000194DBA6#64 := by decide +kernel

/-- V5, X2: shift amounts 0 to 10. -/
theorem test_xform : output (after .xform { keyed hello with hCrc := 0x0D4A1185#32 })
    = [0xC7#8, 0xE6#8, 0x97#8, 0xBF#8, 0xE4#8, 0xF3#8, 0xDC#8, 0x24#8, 0x21#8, 0x27#8, 0x2F#8] := by decide +kernel

/-- V5, X8: no key schedule. -/
theorem test_xform_uninit : (after .xform { input hello with outLen := 3#32 }).errcode = 1#3
    ∧ (after .xform { input hello with outLen := 3#32 }).outLen = 0#32 := by decide

/-- V6, H1. -/
theorem test_hdrPack : output (after .hdrPack { State.reset with
    hType := 0x20#8, hOsize := 0x0000000B#32, hEsize := 0x00000010#32, hCrc := 0x0D4A1185#32, hShift := 0x000007F1#32 })
    = [0x4D#8, 0x43#8, 0x46#8, 0x20#8, 0x00#8, 0x00#8, 0x00#8, 0x0B#8, 0x00#8, 0x00#8, 0x00#8, 0x10#8, 0x0D#8, 0x4A#8,
       0x11#8, 0x85#8, 0x00#8, 0x00#8, 0x07#8, 0xF1#8] := by decide +kernel

/-- V6, H5 on the header of chunk E1: the example of R184. -/
theorem test_hdrUnpack : (after .hdrUnpack (input chunkE1)).hOsize = 11#32
    ∧ (after .hdrUnpack (input chunkE1)).hCrc = 0x0D4A1185#32 := by decide +kernel

/-- V6, H6: one byte short of a header. -/
theorem test_hdrUnpack_short : (after .hdrUnpack (input (chunkE1.take 19))).errcode = 3#3 := by decide +kernel

/-- V8, E1. -/
theorem test_encChunk : output (after .encChunk plainE1) = chunkE1 := by decide +kernel

/-- V9, A1: the entry at index 1, and `RAND`. -/
def plainA1 : State := { withKeys1 plainE1 [5#32, 17#32] with rand := 0x12345678#32 }

/-- Chunk A1 (V9). -/
def chunkA1 : List Byte :=
  [ 0x4D#8, 0x43#8, 0x46#8, 0x10#8, 0x00#8, 0x00#8, 0x00#8, 0x0B#8, 0x00#8, 0x00#8, 0x00#8, 0x00#8, 0x0D#8, 0x4A#8,
    0x11#8, 0x85#8, 0x00#8, 0x00#8, 0x07#8, 0xF1#8, 0x28#8, 0x2B#8, 0x24#8, 0x24#8, 0x21#8, 0x70#8, 0x19#8, 0x21#8,
    0x1E#8, 0x24#8, 0x2C#8 ]

theorem test_encChunk_key_entry : output (after .encChunk plainA1) = chunkA1 := by decide +kernel

theorem test_decChunk_key_entry :
    output (after .decChunk (withKeys1 (keyed chunkA1) [173#32, 413#32])) = hello := by decide +kernel

/-- V8, E7: one payload byte changed. -/
theorem test_decChunk_integrity : (after .decChunk { keyed (chunkE1.set 20 0x2A#8) with chunkId := 1#32 }).errcode = 4#3 := by
  decide +kernel

/-! ## Witnesses: for each statement with hypotheses, states and operands that meet them all -/

/-- The reset state with a command word in flight and the given run ahead. -/
def pending (w : Word) (run : List Turn) : State := { State.reset.accept w with turns := run }

theorem witness_StepRunsDecodedCommand :
    (pending (encode .xform) []).rst = false ∧ (pending (encode .xform) []).busy = true ∧
      (pending (encode .xform) []).turns = [] ∧ decode (pending (encode .xform) []).cmd = .ok .xform ∧
      Instr.xform.wellFormed = true := by decide

theorem witness_StepRunsDecodedCommand_turn :
    (pending (encode .nop) [.sequencer, .sequencer]).rst = false ∧
      (pending (encode .nop) [.sequencer, .sequencer]).busy = true ∧
      (∃ rest, (pending (encode .nop) [.sequencer, .sequencer]).turns = .sequencer :: rest) ∧
      decode (pending (encode .nop) [.sequencer, .sequencer]).cmd = .ok .nop ∧ Instr.nop.wellFormed = true :=
  ⟨rfl, rfl, ⟨_, rfl⟩, by decide, rfl⟩

theorem witness_StepRunsDecodedCommand_illegal :
    (pending 0x00000002#32 []).rst = false ∧ (pending 0x00000002#32 []).busy = true ∧ (pending 0x00000002#32 []).turns = [] ∧
      decode (pending 0x00000002#32 []).cmd = .error .unassignedOpcode := by decide

theorem witness_StepRunsDecodedCommand_host :
    (pending (encode .nop) [rdTurn .status]).rst = false ∧
      (pending (encode .nop) [rdTurn .status]).turns = .host (.rd (regIndex .status)) :: [] ∧
      State.turns { State.reset with turns := [wrTurn .inLen 7#32] } = .host (.wr (regIndex .inLen) 7#32) :: [] := by
  decide

theorem witness_NothingChangesOnItsOwn : State.reset.busy = false ∧ State.reset.turns = [] := by decide

theorem witness_NothingChangesOnItsOwn_turn :
    State.busy { State.reset with turns := [.sequencer] } = false ∧
      State.turns { State.reset with turns := [.sequencer] } = .sequencer :: [] := by decide

theorem witness_AcceptWritesExactly : State.reset.busy = false := by decide

theorem witness_IllegalWordCommitsAsFailure :
    State.reset.busy = false ∧ ∀ i, 0x00000102#32 ≠ encode i := by
  refine ⟨rfl, fun i => ?_⟩
  cases i <;> decide

/-- A command that fails and drops the output. -/
theorem witness_FailedCommandWritesOnlyItsStatus :
    exec .xform (input hello) = .next (after .xform (input hello)) ∧ (after .xform (input hello)).err = true :=
  ⟨exec_after _ _, by decide⟩

/-- A command that fails and keeps it. -/
theorem witness_FailedCommandWritesOnlyItsStatus_kept :
    exec .modpow State.reset = .next (after .modpow State.reset) ∧ (after .modpow State.reset).err = true :=
  ⟨exec_after _ _, by decide⟩

/-- And a command word that is none. -/
theorem witness_FailedCommandWritesOnlyItsStatus_illegal :
    decode (pending 0x00000002#32 []).cmd = .error .unassignedOpcode := by decide

/-- For the first clause of EveryCommitReportsItsOutcome both cases occur: a success here, a failure above. -/
theorem witness_EveryCommitReportsItsOutcome : (after .nop State.reset).err = false := by decide

theorem witness_CommandsKeepTheHostsInputs :
    exec .xform (keyed hello) = .next (after .xform (keyed hello)) ∧ Instr.xform ≠ .cleanup ∧ Instr.xform ≠ .ksDerive :=
  ⟨exec_after _ _, by decide, by decide⟩

theorem witness_InterruptAfterCommit :
    exec .modpow { State.reset with errIe := true } = .next (after .modpow { State.reset with errIe := true }) ∧
      (after .modpow { State.reset with errIe := true }).irq = true :=
  ⟨exec_after _ _, by decide⟩

/-- Each of the three events: a commit with `DONE_IE` set, a write of `IEN` after it, and reset. -/
theorem witness_InterruptChangesOnlyAtNamedEvents :
    (let s := { pending (encode .nop) [.sequencer] with doneIe := true };
      ∃ t, step s = .next t ∧ t.irq ≠ s.irq) ∧
      (let s := { State.reset with done := true, turns := [wrTurn .ien 2#32] };
        ∃ t, step s = .next t ∧ t.irq ≠ s.irq) ∧
      (let s := { State.reset with done := true, doneIe := true, turns := [.assertReset] };
        ∃ t, step s = .next t ∧ t.irq ≠ s.irq) :=
  ⟨⟨_, rfl, by decide⟩, ⟨_, rfl, by decide⟩, ⟨_, rfl, by decide⟩⟩

/-- Each of the three events: a failing commit, an accept after it, and reset. -/
theorem witness_ErrorCodeStaysUntilTheNextAccept :
    (let s := pending (encode .modpow) [];
      ∃ t, step s = .next t ∧ t.errcode ≠ s.errcode) ∧
      (let s := { State.reset with errcode := 6#3, turns := [wrTurn .cmd 0#32] };
        ∃ t, step s = .next t ∧ t.errcode ≠ s.errcode) ∧
      (let s := { State.reset with errcode := 6#3, turns := [.assertReset] };
        ∃ t, step s = .next t ∧ t.errcode ≠ s.errcode) :=
  ⟨⟨_, rfl, by decide⟩, ⟨_, rfl, by decide⟩, ⟨_, rfl, by decide⟩⟩

/-- `WRBUSY` cleared by a write of 1, cleared by reset, and set by a write while busy. -/
theorem witness_WriteBusyFlagIsSticky :
    (let s := { State.reset with wrbusy := true, turns := [wrTurn .status 8#32] };
      ∃ t, step s = .next t ∧ s.wrbusy = true ∧ t.wrbusy = false) ∧
      (let s := { State.reset with wrbusy := true, turns := [.assertReset] };
        ∃ t, step s = .next t ∧ s.wrbusy = true ∧ t.wrbusy = false) ∧
      (let s := pending (encode .nop) [wrTurn .inLen 8#32];
        ∃ t, step s = .next t ∧ s.wrbusy = false ∧ t.wrbusy = true) :=
  ⟨⟨_, rfl, by decide, by decide⟩, ⟨_, rfl, by decide, by decide⟩, ⟨_, rfl, by decide, by decide⟩⟩

/-- A key schedule and an output that a command changes, and that reset changes. -/
theorem witness_OnlyTheirCommandsMoveTheGatedMemories :
    (let s := { pending (encode .cleanup) [.sequencer] with vecSize := 1#32 };
      ∃ t, step s = .next t ∧ t.vecSize ≠ s.vecSize) ∧
      (let s := { pending (encode .hdrPack) [] with outLen := 1#32 };
        ∃ t, step s = .next t ∧ t.outLen ≠ s.outLen) ∧
      (let s := { State.reset with vecSize := 1#32, outLen := 1#32, turns := [.assertReset] };
        ∃ t, step s = .next t ∧ t.vecSize ≠ s.vecSize ∧ t.outLen ≠ s.outLen) :=
  ⟨⟨_, rfl, by decide⟩, ⟨_, rfl, by decide⟩, ⟨_, rfl, by decide, by decide⟩⟩

theorem witness_BusyWriteDoesNotDisturbTheCommit :
    (pending (encode .nop) []).busy = true ∧
      commitStep (pending (encode .nop) []) = .next (after .nop (pending (encode .nop) [])) :=
  ⟨rfl, rfl⟩

theorem witness_AcceptedCommandCommits :
    let s := pending (encode .nop) [rdTurn .status, wrTurn .inLen 5#32, .sequencer]
    s.rst = false ∧ s.busy = true ∧ ∀ u ∈ s.turns, isOrdinary u = true := by decide

theorem witness_WaitEndsWithTheCommandCommitted :
    let s := pending (encode .nop) (expand (.wait 2))
    s.rst = false ∧ s.busy = true ∧ s.turns = expand (.wait 2) := by decide

/-- A failed command, with `DONE` and `ERR` both set. -/
theorem witness_StatusWriteClearsOnlyWrittenOnes : (after .modpow State.reset).busy = false := by decide

/-- A register with reserved bits, and another register. -/
theorem witness_RwRegisterReadsBackItsBits :
    State.reset.busy = false ∧ rwMask .ien = some 0x00000006#32 ∧ Reg.ctrl ≠ .ien ∧ Reg.ctrl ≠ .status ∧ Reg.ctrl ≠ .bufData := by
  decide

/-- The two views, after a write that they do not show. -/
theorem witness_RwRegisterReadsBackItsBits_views :
    rwMask .bufAddr = some 0xFFFFFFFF#32 ∧ Reg.status ≠ .bufAddr ∧ Reg.bufAddr ≠ .keyLen ∧
      rwMask .keyLen = some 0xFFFFFFFF#32 ∧ Reg.bufData ≠ .keyLen ∧ Reg.keyLen ≠ .bufSel ∧ Reg.keyLen ≠ .bufAddr := by
  decide

/-- The first and the last reserved offset of an idle machine. -/
theorem witness_ReadOnlyAndReservedOffsetsTakeNoWrite :
    State.reset.busy = false ∧ 0x90 / 4 ≤ (36#6).toNat ∧ 0x90 / 4 ≤ (63#6).toNat := by decide

/-- An idle machine with the port at the last byte of IBUF, and one past it. -/
theorem witness_BufferPort :
    State.busy { State.reset with bufAddr := 4115#32 } = false ∧
      (State.bufAddr { State.reset with bufAddr := 4115#32 }).toNat < State.reset.par.dbuf ∧
      State.busy { State.reset with bufAddr := 4116#32 } = false ∧
      ¬ (State.bufAddr { State.reset with bufAddr := 4116#32 }).toNat < State.reset.par.dbuf := by decide

/-- A command in flight with any run ahead keeps the invariant, whichever memory the port selects. -/
theorem inv_pending (sel : BitVec 3) (w : Word) (run : List Turn) : Inv { pending w run with bufSel := sel } where
  ibufWf := rfl
  obufWf := rfl
  saltWf := rfl
  passWf := rfl
  ivWf := rfl
  keynWf := rfl
  keyxWf := rfl
  busyDone _ := rfl
  busyErr _ := rfl
  busyErrcode _ := rfl
  noIoError h := by
    have : (0#3 : BitVec 3) = 2#3 := h
    exact absurd this (by decide)
  outLenCap := Nat.zero_le _
  vecSizeCap := Nat.zero_le _
  outWritten _ hk := absurd hk (Nat.not_lt_zero _)
  ivWritten _ hk := absurd hk (Nat.not_lt_zero _)
  resetIdle h := by
    have : false = true := h
    cases this

theorem witness_BusyPortDiscardsWrites :
    Inv (pending (encode .nop) []) ∧ (pending (encode .nop) []).busy = true := ⟨inv_pending 0#3 (encode .nop) [], rfl⟩

theorem witness_ResetLeavesTheResetColumn : resetColumn Config.defaults .sig = some 0x004D4346#32 := by decide

theorem witness_ResetAbandonsEverything :
    let s := pending (encode .nop) [.assertReset, rdTurn .status, .sequencer, .releaseReset, rdTurn .id]
    (∀ u ∈ [rdTurn .status, .sequencer], isOrdinary u = true) ∧
      s.turns = .assertReset :: ([rdTurn .status, .sequencer] ++ .releaseReset :: [rdTurn .id]) := by decide

theorem witness_EveryStepKeepsTheInvariant :
    Inv (pending (encode .cleanup) [.sequencer]) ∧ ∃ t, step (pending (encode .cleanup) [.sequencer]) = .next t :=
  ⟨inv_pending 0#3 (encode .cleanup) [.sequencer], _, rfl⟩

theorem witness_ParametersNeverChange : ∃ t, step (pending (encode .hdrPack) []) = .next t := ⟨_, rfl⟩

/-- An encryption with key material, all of whose operands are written. -/
theorem witness_WrittenOperandsDetermineTheResult :
    OperandsWritten .encChunk (withKey plainE1 5#32) ∧
      exec .encChunk (withKey plainE1 5#32) = .next (after .encChunk (withKey plainE1 5#32)) := by
  refine ⟨⟨fun _ => ?_, ?_, fun _ _ => ?_⟩, exec_after _ _⟩
  · unfold Memory.writtenTo; decide +kernel
  · unfold Memory.writtenTo; decide +kernel
  · decide +kernel

/-- A command without memory operands, and one whose length is out of range. -/
theorem witness_WrittenOperandsDetermineTheResult_none :
    OperandsWritten .modpow State.reset ∧ exec .modpow State.reset = .next (after .modpow State.reset) ∧
      OperandsWritten .crcRun { State.reset with inLen := 4117#32 } :=
  ⟨trivial, exec_after _ _, fun h => absurd h (by decide)⟩

theorem witness_GatedMemoriesShowNoFreeValue (sel : BitVec 3) (hs : sel = 1#3 ∨ sel = 4#3) :
    Inv { pending (encode .nop) [] with bufSel := sel } ∧
      (State.bufSel { pending (encode .nop) [] with bufSel := sel } = 1#3 ∨
        State.bufSel { pending (encode .nop) [] with bufSel := sel } = 4#3) :=
  ⟨inv_pending _ _ _, hs⟩

theorem witness_NopResult : State.reset.busy = false := by decide

/-- The longest accepted length, and the next. -/
theorem witness_CrcCommandsResult :
    (State.inLen { State.reset with inLen := 4116#32 }).toNat ≤ State.reset.par.dbuf ∧
      State.reset.par.dbuf < (State.inLen { State.reset with inLen := 4117#32 }).toNat := by decide

theorem witness_CrcRunThenContIsOneCrc :
    let s := input [0x31#8, 0x32#8]
    let t := after .crcRun s
    let u := { t with ibuf := bytesAt0 [0x33#8], inLen := 1#32 }
    exec .crcRun s = .next t ∧ t.err = false ∧ u.crcRaw = t.crcRaw ∧
      exec .crcCont u = .next (after .crcCont u) ∧ (after .crcCont u).err = false :=
  ⟨exec_after _ _, by decide, rfl, exec_after _ _, by decide⟩

theorem witness_CrcSeesOneChangedByte : (0x2B#8 : Byte) ≠ 0x2A#8 := by decide

/-- The least modulus, and modulus 0. -/
theorem witness_ModpowResult :
    State.mpMod { State.reset with mpMod := 1#32 } ≠ 0#32 ∧ State.mpMod State.reset = 0#32 := by decide

theorem witness_ModpowAgreesWithTheModularPower : modpowF 2#32 2#32 4#32 = some 4#32 := by decide +kernel

/-- The least operand, the one below it, and an even one. -/
theorem witness_IsprimeResult :
    3 ≤ 0 * 2 ^ 32 + (3#32).toNat ∧ (0 * 2 ^ 32 + (3#32).toNat) % 2 = 1 ∧ (2#32).toNat < 3 ∧ (4#32).toNat % 2 = 0 := by
  decide

theorem witness_IsprimeFunctionIsExact : isPrimeF 3 = some true ∧ isPrimeF 9 = some false := by decide

/-- 4096 fits in twelve bits and no fewer. -/
theorem witness_BitsIsTheCeilingLogarithm : Config.defaults.bufferSize ≤ 2 ^ 12 ∧ Config.defaults.bits = 12 := by
  decide +kernel

/-- A value at the edge of each check of KS_DERIVE, the checks before it passed. -/
theorem witness_KsDeriveChecksInOrder :
    (State.reset.saltLen.toNat = 0) ∧
      (let s := { derive [1#8] [1#8] with passLen := 64#32 };
        ¬ (s.saltLen.toNat = 0 ∨ s.par.saltMax < s.saltLen.toNat) ∧ s.par.passMax < s.passLen.toNat) ∧
      (let s := derive [1#8] [1#8, 0#8];
        ¬ (s.saltLen.toNat = 0 ∨ s.par.saltMax < s.saltLen.toNat) ∧
          ¬ (s.passLen.toNat = 0 ∨ s.par.passMax < s.passLen.toNat) ∧
          ∃ i < s.passLen.toNat, s.pass.read .pass s.draw i = 0#8) ∧
      (let s := { derive [1#8] [1#8] with mult := 0#32 };
        ¬ (∃ i < s.passLen.toNat, s.pass.read .pass s.draw i = 0#8) ∧ s.mult.getLsbD 31 = false ∧
          s.mult.toNat < s.par.minMult) ∧
      (let s := { derive [1#8] [1#8] with mult := 65537#32 };
        ¬ (∃ i < s.passLen.toNat, s.pass.read .pass s.draw i = 0#8) ∧ s.mult.getLsbD 31 = false ∧
          s.par.minMult ≤ s.mult.toNat ∧ s.par.vecMax < s.saltLen.toNat * s.passLen.toNat * s.mult.toNat) ∧
      (let s := { derive [1#8] [1#8] with mult := 65536#32 };
        s.par.wf = true ∧ ¬ (s.saltLen.toNat = 0 ∨ s.par.saltMax < s.saltLen.toNat) ∧
          ¬ (s.passLen.toNat = 0 ∨ s.par.passMax < s.passLen.toNat) ∧
          ¬ (∃ i < s.passLen.toNat, s.pass.read .pass s.draw i = 0#8) ∧ s.mult.getLsbD 31 = false ∧
          s.par.minMult ≤ s.mult.toNat ∧ s.saltLen.toNat * s.passLen.toNat * s.mult.toNat = s.par.vecMax) := by
  decide +kernel

theorem witness_KsDeriveComputesTheFormulas :
    let s := derive [0x41#8] [0x42#8]
    s.par.wf = true ∧ 1 ≤ s.saltLen.toNat ∧ s.saltLen.toNat ≤ s.par.saltMax ∧ 1 ≤ s.passLen.toNat ∧
      s.passLen.toNat ≤ s.par.passMax ∧ (∀ i < s.passLen.toNat, (s.pass.read .pass s.draw i).toNat ≠ 0) ∧
      s.par.minMult ≤ (if s.mult.getLsbD 31 then s.par.defaultMult else s.mult.toNat) ∧
      s.saltLen.toNat * s.passLen.toNat * (if s.mult.getLsbD 31 then s.par.defaultMult else s.mult.toNat)
        ≤ s.par.vecMax := by decide +kernel

theorem witness_KsDeriveAgainChangesNothing :
    let s := derive [0x41#8] [0x42#8]
    OperandsWritten .ksDerive s ∧ exec .ksDerive s = .next (after .ksDerive s) ∧ (after .ksDerive s).err = false := by
  refine ⟨⟨fun _ => ?_, fun _ => ?_⟩, exec_after _ _, by decide +kernel⟩ <;>
    · unfold Memory.writtenTo; decide +kernel

/-- The longest accepted block, and the next. -/
theorem witness_XformComputesTheByteForm :
    let s := { keyed hello with inLen := 4096#32 }
    s.vecSize ≠ 0#32 ∧ s.inLen.toNat ≤ s.par.bufferSize := by decide

theorem witness_XformChecksInOrder :
    (input hello).vecSize = 0#32 ∧ (let s := { keyed hello with inLen := 4097#32 };
      s.vecSize ≠ 0#32 ∧ s.par.bufferSize < s.inLen.toNat) := by decide

theorem witness_XformIsSelfInverse :
    let s := keyed hello
    let t := after .xform s
    let u := { s with ibuf := bytesAt0 (output t) }
    exec .xform s = .next t ∧ t.err = false ∧ u.par = s.par ∧ u.vecSize = s.vecSize ∧ u.ivalLo = s.ivalLo ∧
      u.ivalHi = s.ivalHi ∧ (∀ k < s.vecSize.toNat, u.iv.read .iv u.draw k = s.iv.read .iv s.draw k) ∧
      u.hCrc = s.hCrc ∧ u.chunkId = s.chunkId ∧ u.inLen = s.inLen ∧
      (∀ k < s.inLen.toNat, u.ibuf.read .ibuf u.draw k = t.obuf.read .obuf t.draw k) ∧
      exec .xform u = .next (after .xform u) :=
  ⟨exec_after _ _, by decide +kernel, rfl, rfl, rfl, rfl, fun _ _ => rfl, rfl, rfl, rfl, by decide +kernel,
    exec_after _ _⟩

theorem witness_FullRowsHideTheChunkId : (List.replicate 32 (0x61#8 : Byte)).length % 32 = 0 := by decide

/-- Both valid types, and an invalid one. -/
theorem witness_HdrPackResult :
    State.reset.hType = 0x10#8 ∧ State.hType { State.reset with hType := 0x20#8 } = State.reset.par.encBase64 ∧
      (0x11#8 : Byte) ≠ 0x10#8 ∧ (0x11#8 : Byte) ≠ State.reset.par.encBase64 := by decide

/-- A whole header at its exact length, and one byte less. -/
theorem witness_HdrUnpackResult :
    let s := input (chunkE1.take 20)
    20 ≤ s.inLen.toNat ∧ s.ibuf.read .ibuf s.draw 0 = s.par.sig0 ∧ s.ibuf.read .ibuf s.draw 1 = s.par.sig1 ∧
      s.ibuf.read .ibuf s.draw 2 = s.par.sig2 ∧ s.ibuf.read .ibuf s.draw 3 = 0x10#8 ∧
      (input (chunkE1.take 19)).inLen.toNat < 20 := by decide +kernel

/-- A state at each check of ENC_CHUNK, the checks before it passed: no schedule, a bad type, SimpleMode with Base64, a length one too
large, too many keys, modulus 0 at index 0 and at index 1. -/
theorem witness_EncChunkChecksInOrder :
    (input hello).vecSize = 0#32 ∧
      (let s := { keyed hello with hType := 0x11#8 };
        s.vecSize ≠ 0#32 ∧ s.hType ≠ 0x10#8 ∧ s.hType ≠ s.par.encBase64) ∧
      (let s := { keyed hello with hType := 0x20#8, simple := true };
        s.vecSize ≠ 0#32 ∧ s.hType = s.par.encBase64 ∧ s.simple = true ∧ s.hType ≠ 0x10#8) ∧
      (let s := { keyed hello with inLen := 4097#32 };
        s.vecSize ≠ 0#32 ∧ s.hType = 0x10#8 ∧ s.par.bufferSize < s.inLen.toNat) ∧
      (let s := { keyed hello with inLen := 4096#32, keyLen := 257#32 };
        s.hType = 0x10#8 ∧ ¬ s.par.bufferSize < s.inLen.toNat ∧ s.keyLen ≠ 0#32 ∧ s.par.keyMax < s.keyLen.toNat) ∧
      (let s := { keyed hello with keyLen := 1#32, keyn := wordsAt0 [0#32] };
        s.hType = 0x10#8 ∧ ¬ s.par.bufferSize < s.inLen.toNat ∧ s.keyLen ≠ 0#32 ∧
          s.keyn.read .keyn s.draw (s.chunkId.toNat % s.keyLen.toNat) = 0#32) ∧
      (let s := { plainA1 with keyn := wordsAt0 [323#32, 0#32] };
        s.hType = 0x10#8 ∧ ¬ s.par.bufferSize < s.inLen.toNat ∧ s.keyLen ≠ 0#32 ∧
          s.keyn.read .keyn s.draw (s.chunkId.toNat % s.keyLen.toNat) = 0#32) := by
  decide +kernel

/-- Symmetric mode, and Asymmetric mode with the entry at index 1. -/
theorem witness_EncChunkResult :
    (let s := plainE1;
      s.par.wf = true ∧ s.vecSize ≠ 0#32 ∧ s.hType = 0x10#8 ∧ s.simple = false ∧ s.inLen.toNat ≤ s.par.bufferSize ∧
        s.keyLen = 0#32) ∧
      (let s := plainA1;
      s.par.wf = true ∧ s.vecSize ≠ 0#32 ∧ s.hType = 0x10#8 ∧ s.simple = false ∧ s.inLen.toNat ≤ s.par.bufferSize ∧
        s.keyLen ≠ 0#32 ∧ s.keyLen.toNat ≤ s.par.keyMax ∧
        s.keyn.read .keyn s.draw (s.chunkId.toNat % s.keyLen.toNat) = 3233#32) := by decide +kernel

/-- A chunk in IBUF, with the schedule of its encryption. -/
def cipherE1 (chunk : List Byte) : State := { keyed chunk with chunkId := 1#32 }

/-- A state at each check of DEC_CHUNK, the checks before it passed. -/
theorem witness_DecChunkChecksInOrder :
    (input chunkE1).vecSize = 0#32 ∧
      (let s := { cipherE1 chunkE1 with inLen := 4117#32 };
        s.vecSize ≠ 0#32 ∧ s.par.dbuf < s.inLen.toNat) ∧
      (let s := { cipherE1 chunkE1 with inLen := 19#32 };
        ¬ s.par.dbuf < s.inLen.toNat ∧ s.inLen.toNat < 20) ∧
      (let s := { cipherE1 (chunkE1.set 3 0x20#8) with simple := true };
        ¬ s.inLen.toNat < 20 ∧ s.simple = true ∧ s.inputHeader.type = s.par.encBase64 ∧ s.inputHeader.type ≠ 0x10#8) ∧
      (let s := cipherE1 ((chunkE1.set 6 0x10#8).set 7 0x01#8);
        s.inputHeader.type = 0x10#8 ∧ s.inputHeader.osize.toNat = s.par.bufferSize + 1) ∧
      (let s := cipherE1 (chunkE1.set 7 0x0C#8);
        ¬ s.par.bufferSize < s.inputHeader.osize.toNat ∧ s.inputHeader.osize.toNat = s.inLen.toNat - 20 + 1) ∧
      (let s := cipherE1 (chunkE1.set 19 0x01#8);
        s.inputHeader.osize.toNat = s.inLen.toNat - 20 ∧ s.inputHeader.shift ≠ 0#32 ∧ s.keyLen = 0#32) ∧
      (let s := { cipherE1 (chunkE1.set 19 0x01#8) with keyLen := 257#32 };
        s.inputHeader.shift ≠ 0#32 ∧ s.keyLen ≠ 0#32 ∧ s.par.keyMax < s.keyLen.toNat) := by
  decide +kernel

/-- The hypotheses of DecChunkResult at a state without a shift field. -/
theorem witness_DecChunkResult :
    let s := cipherE1 chunkE1
    let h := hdrParse (s.ibuf.readRange .ibuf s.draw 0 20)
    s.vecSize ≠ 0#32 ∧ s.inLen.toNat ≤ s.par.dbuf ∧ 20 ≤ s.inLen.toNat ∧ h.sig0 = s.par.sig0 ∧ h.sig1 = s.par.sig1 ∧
      h.sig2 = s.par.sig2 ∧ h.type = 0x10#8 ∧ s.simple = false ∧ h.osize.toNat ≤ s.par.bufferSize ∧
      h.osize.toNat ≤ s.inLen.toNat - 20 ∧ h.shift = 0#32 ∧
      crc32 (s.process h.crc (s.ibuf.readRange .ibuf s.draw 20 h.osize.toNat)) = h.crc := by decide +kernel

/-- And with one payload byte changed: the CRCs differ. -/
theorem witness_DecChunkResult_integrity :
    let s := cipherE1 (chunkE1.set 20 0x2A#8)
    let h := hdrParse (s.ibuf.readRange .ibuf s.draw 0 20)
    h.shift = 0#32 ∧ s.simple = false ∧
      crc32 (s.process h.crc (s.ibuf.readRange .ibuf s.draw 20 h.osize.toNat)) ≠ h.crc := by decide +kernel

/-- And with a shift field: chunk A1 (V9) on the decrypting side recovers `0xFD` under the entry at index 1. -/
theorem witness_DecChunkResult_shift :
    let s := withKeys1 (keyed chunkA1) [173#32, 413#32]
    let h := hdrParse (s.ibuf.readRange .ibuf s.draw 0 20)
    h.shift ≠ 0#32 ∧ s.keyLen ≠ 0#32 ∧ s.keyLen.toNat ≤ s.par.keyMax ∧
      modpowF h.shift (s.keyx.read .keyx s.draw (s.chunkId.toNat % s.keyLen.toNat))
        (s.keyn.read .keyn s.draw (s.chunkId.toNat % s.keyLen.toNat)) = some 0xFD#32 := by
  decide +kernel

/-- Chunk E1 between two matched sides in Symmetric mode. -/
theorem witness_ChunkRoundTrip :
    let s := plainE1
    let t := after .encChunk s
    let u := cipherE1 (output t)
    s.par.wf = true ∧ exec .encChunk s = .next t ∧ t.err = false ∧ MatchedSides s t u ∧ u.inLen = t.outLen ∧
      ∀ k < t.outLen.toNat, u.ibuf.read .ibuf u.draw k = t.obuf.read .obuf t.draw k :=
  ⟨by decide, exec_after _ _, by decide +kernel,
    ⟨rfl, fun h => absurd h (by decide), rfl, rfl, rfl, rfl, fun _ _ => rfl, .inl ⟨rfl, rfl⟩⟩, by decide +kernel,
    by decide +kernel⟩

/-- Chunk A1 between two matched sides in Asymmetric mode (V9). -/
theorem witness_ChunkRoundTrip_asymmetric :
    let s := plainA1
    let t := after .encChunk s
    let u := withKeys1 (keyed (output t)) [173#32, 413#32]
    s.par.wf = true ∧ exec .encChunk s = .next t ∧ t.err = false ∧ MatchedSides s t u ∧ u.inLen = t.outLen ∧
      ∀ k < t.outLen.toNat, u.ibuf.read .ibuf u.draw k = t.obuf.read .obuf t.draw k :=
  ⟨by decide, exec_after _ _, by decide +kernel,
    ⟨rfl, fun h => absurd h (by decide), rfl, rfl, rfl, rfl, fun _ _ => rfl, .inr ⟨by decide, by decide, by decide,
      by decide +kernel, by decide +kernel, fun _ => ⟨0xFD#32, by decide +kernel, by decide +kernel⟩⟩⟩, by decide +kernel,
    by decide +kernel⟩

/-- Chunk E1 with byte 20, the first of the payload, changed. -/
theorem witness_ChangedPayloadByteIsDetected :
    let s := plainE1
    let t := after .encChunk s
    let u := cipherE1 (chunkE1.set 20 0x2A#8)
    s.par.wf = true ∧ exec .encChunk s = .next t ∧ t.err = false ∧ MatchedSides s t u ∧ u.simple = false ∧
      u.inLen = t.outLen ∧ 20 ≤ 20 ∧ 20 < t.outLen.toNat ∧
      (∀ k < t.outLen.toNat, k ≠ 20 → u.ibuf.read .ibuf u.draw k = t.obuf.read .obuf t.draw k) ∧
      u.ibuf.read .ibuf u.draw 20 ≠ t.obuf.read .obuf t.draw 20 :=
  ⟨by decide, exec_after _ _, by decide +kernel,
    ⟨rfl, fun h => absurd h (by decide), rfl, rfl, rfl, rfl, fun _ _ => rfl, .inl ⟨rfl, rfl⟩⟩, rfl, by decide +kernel,
    le_rfl, by decide +kernel, by decide +kernel, by decide +kernel⟩

end Sys2Proof.Tests
end

section
/-! The parameters (spec 00_scope.md R9, R10): no operation of MCB writes them (log entry 1), and `P_BITS` is the
ceiling logarithm of the library. -/

namespace Sys2Proof.Machine

/-! ### No operation writes a parameter -/

/-- No command's own writes reach a parameter. -/
theorem evalOf_ok_par {i : Instr} {s u : State} (h : evalOf i s = .ok u) : u.par = s.par := by
  cases i with
  | nop => cases h; rfl
  | cleanup => cases h; rfl
  | crcRun => obtain ⟨-, rfl⟩ := evalCrc_ok_iff.1 h; rfl
  | crcCont => obtain ⟨-, rfl⟩ := evalCrc_ok_iff.1 h; rfl
  | modpow => obtain ⟨-, rfl⟩ := evalModpow_ok_iff.1 h; rfl
  | isprime => obtain ⟨-, -, rfl⟩ := evalIsprime_ok_iff.1 h; rfl
  | ksDerive => obtain ⟨-, -, rfl⟩ := evalKsDerive_ok_iff.1 h; rfl
  | xform => obtain ⟨-, -, rfl⟩ := evalXform_ok_iff.1 h; rfl
  | hdrPack => obtain ⟨-, rfl⟩ := evalHdrPack_ok_iff.1 h; rfl
  | hdrUnpack => obtain ⟨-, -, rfl⟩ := evalHdrUnpack_ok_iff.1 h; rfl
  | encChunk => obtain ⟨-, -, -, -, rfl⟩ := evalEncChunk_ok_iff.1 h; rfl
  | decChunk => obtain ⟨-, -, -, -, -, rfl⟩ := evalDecChunk_ok_iff.1 h; rfl

theorem exec_par {i : Instr} {s t : State} (h : exec i s = .next t) : t.par = s.par := by
  obtain ⟨u, hu, rfl⟩ | ⟨e, -, rfl⟩ := exec_cases h
  · exact (State.succeed_par u).trans (evalOf_ok_par hu)
  · cases dropsOutput i <;> rfl

/-- All that a commit can do: what the decoded command does, or the failure of an illegal word (R94, R97). -/
theorem commitStep_cases {s t : State} (h : commitStep s = .next t) :
    (∃ i, decode s.cmd = .ok i ∧ exec i s = .next t) ∨ ∃ e, decode s.cmd = .error e ∧ t = s.fail .illcmd := by
  unfold commitStep at h
  split at h
  · next i hi => exact .inl ⟨i, hi, h⟩
  · next e he => cases h; exact .inr ⟨e, he, rfl⟩

theorem commitStep_par {s t : State} (h : commitStep s = .next t) : t.par = s.par := by
  obtain ⟨i, -, hi⟩ | ⟨e, -, rfl⟩ := commitStep_cases h
  · exact exec_par hi
  · rfl

@[simp] theorem State.storeElement_par (s : State) (b : Buf) (a : Nat) (v : Word) : (s.storeElement b a v).par = s.par := by
  cases b <;> rfl

@[simp] theorem State.storeData_par (s : State) (v : Word) : (s.storeData v).par = s.par := by
  cases h : bufOf s.bufSel with
  | none => rw [State.storeData_of_none h]
  | some b => rw [State.storeData_of h, apply_ite State.par, State.storeElement_par, ite_self]

@[simp] theorem State.readEffect_par (s : State) (r : Reg) : (s.readEffect r).par = s.par := by
  cases r <;> rfl

@[simp] theorem State.writeReg_par (s : State) (r : Reg) (v : Word) : (s.writeReg r v).par = s.par := by
  cases r with
  | bufData => exact State.storeData_par s v
  | _ => rfl

@[simp] theorem State.rd_par (s : State) (index : BitVec 6) : (s.rd index).par = s.par := by
  unfold State.rd
  cases s.busy <;> cases regAt index <;> simp

@[simp] theorem State.wr_par (s : State) (index : BitVec 6) (v : Word) : (s.wr index v).par = s.par := by
  unfold State.wr
  cases s.busy <;> cases regAt index <;> simp

@[simp] theorem State.transact_par (s : State) (t : Transaction) : (s.transact t).par = s.par := by
  cases t with
  | rd index => exact State.rd_par s index
  | wr index v => exact State.wr_par s index v

theorem hostTurn_par {t : Transaction} {s u : State} (h : hostTurn t s = .next u) : u.par = s.par := by
  unfold hostTurn at h
  split at h <;> cases h
  · rfl
  · exact State.transact_par s t

theorem sequencerTurn_par {s t : State} (h : sequencerTurn s = .next t) : t.par = s.par := by
  unfold sequencerTurn at h
  split at h
  · cases h; rfl
  · split at h
    · exact commitStep_par h
    · cases h; rfl

theorem assertTurn_par {s t : State} (h : assertTurn s = .next t) : t.par = s.par := by
  cases h; rfl

theorem releaseTurn_par {s t : State} (h : releaseTurn s = .next t) : t.par = s.par := by
  unfold releaseTurn at h
  split at h <;> cases h <;> rfl

/-- No step writes a parameter (R9, log entry 1). -/
theorem step_par {s t : State} (h : step s = .next t) : t.par = s.par := by
  obtain ⟨-, -, -, hs⟩ | ⟨-, -, hs⟩ | ⟨_, _, -, hs⟩ | ⟨_, -, hs⟩ | ⟨_, -, hs⟩ | ⟨_, -, hs⟩ := step_cases s <;>
    rw [hs] at h
  · exact (commitStep_par h).trans (State.advance_par s)
  · cases h; rfl
  · exact (hostTurn_par h).trans (State.advance_par s)
  · exact (sequencerTurn_par h).trans (State.advance_par s)
  · exact (assertTurn_par h).trans (State.advance_par s)
  · exact (releaseTurn_par h).trans (State.advance_par s)

/-- What `SIG` reads as depends on the parameters only (R29). -/
theorem State.readReg_sig_of_par {s t : State} (h : t.par = s.par) : t.readReg .sig = s.readReg .sig := by
  simp only [State.readReg, h]

/-- Settles O30: every turn keeps the parameters, and `ID` and `SIG` read nothing else of the state. -/
theorem parametersNeverChange : Obligations.ParametersNeverChange := by
  intro s t h
  have hpar : t.par = s.par := step_par h
  exact ⟨hpar, rfl, State.readReg_sig_of_par hpar⟩

/-! ### The derived parameters -/

/-- The search finds the ceiling logarithm when it starts at or below it with fuel enough to get there. -/
theorem ceilLog2From_eq_clog {n m fuel : Nat} (hm : m ≤ Nat.clog 2 n) (hf : Nat.clog 2 n ≤ m + fuel) :
    ceilLog2From n m fuel = Nat.clog 2 n := by
  induction fuel generalizing m with
  | zero => exact Nat.le_antisymm hm hf
  | succ fuel ih =>
    unfold ceilLog2From
    split
    · next hn => exact Nat.le_antisymm hm (Nat.clog_le_of_le_pow hn)
    · next hn =>
      have hlt : m < Nat.clog 2 n := (Nat.lt_clog_iff_pow_lt Nat.one_lt_two).2 (Nat.lt_of_not_le hn)
      exact ih hlt (by omega)

/-- `n` tries from 0 suffice because `n < 2^n` (R10). -/
theorem ceilLog2_eq_clog (n : Nat) : ceilLog2 n = Nat.clog 2 n :=
  have hn : Nat.clog 2 n ≤ n := Nat.clog_le_of_le_pow Nat.lt_two_pow_self.le
  ceilLog2From_eq_clog (Nat.zero_le _) (by omega)

theorem bits_eq_clog (p : Params) : p.bits = Nat.clog 2 p.bufferSize := ceilLog2_eq_clog p.bufferSize

/-- Settles O43: `P_BITS` is the library's ceiling logarithm, and `P_HDR_LEN` is 20. -/
theorem bitsIsTheCeilingLogarithm : Obligations.BitsIsTheCeilingLogarithm := by
  intro p
  rw [bits_eq_clog]
  exact ⟨⟨Nat.le_pow_clog Nat.one_lt_two _, fun _ => Nat.clog_le_of_le_pow⟩, rfl⟩

end Sys2Proof.Machine
end

section
/-! What a step can do, said once by what it performs: nothing, a host transaction, the commit of the command in flight, or a
change of `rst` (spec 70_reset_and_hazards.md R250, R263). -/

namespace Sys2Proof.Machine

/-- A commit is enabled, and the run has come to the sequencer's turn or is over (R263, R268). -/
def CommitDue (s : State) : Prop :=
  s.rst = false ∧ s.busy = true ∧ (s.turns = [] ∨ ∃ rest, s.turns = .sequencer :: rest)

/-- The next turn is a change of `rst` (R250). -/
def ResetDue (s : State) : Prop := ∃ rest, s.turns = .assertReset :: rest ∨ s.turns = .releaseReset :: rest

theorem hostTurn_cases {u : Transaction} {s t : State} (h : hostTurn u s = .next t) :
    (s.rst = true ∧ t = s) ∨ (s.rst = false ∧ t = s.transact u) := by
  unfold hostTurn at h
  split at h
  · next hr => cases h; exact .inl ⟨hr, rfl⟩
  · next hr => cases h; exact .inr ⟨Bool.eq_false_of_not_eq_true hr, rfl⟩

theorem sequencerTurn_cases {s t : State} (h : sequencerTurn s = .next t) :
    t = s ∨ (s.rst = false ∧ s.busy = true ∧ commitStep s = .next t) := by
  unfold sequencerTurn at h
  split at h
  · cases h; exact .inl rfl
  · next hr =>
    split at h
    · next hb => exact .inr ⟨Bool.eq_false_of_not_eq_true hr, hb, h⟩
    · cases h; exact .inl rfl

theorem releaseTurn_cases {s t : State} (h : releaseTurn s = .next t) :
    t = s ∨ t = { s.resetRegisters with rst := false } := by
  unfold releaseTurn at h
  split at h <;> cases h
  · exact .inr rfl
  · exact .inl rfl

/-- All that a step can perform. -/
theorem step_next_cases {s t : State} (h : step s = .next t) :
    (t = s ∨ t = s.advance) ∨
    (s.rst = false ∧ ∃ u rest, s.turns = .host u :: rest ∧ t = s.advance.transact u) ∨
    (CommitDue s ∧ commitStep s.advance = .next t) ∨
    (ResetDue s ∧ ∃ level, t = { s.advance.resetRegisters with rst := level }) := by
  obtain ⟨ht, hb, hr, hs⟩ | ⟨-, -, hs⟩ | ⟨u, rest, ht, hs⟩ | ⟨rest, ht, hs⟩ | ⟨rest, ht, hs⟩ | ⟨rest, ht, hs⟩ :=
      step_cases s <;>
    rw [hs] at h
  · exact .inr (.inr (.inl ⟨⟨hr, hb, .inl ht⟩, h⟩))
  · cases h; exact .inl (.inl rfl)
  · obtain ⟨-, rfl⟩ | ⟨hr, rfl⟩ := hostTurn_cases h
    · exact .inl (.inr rfl)
    · exact .inr (.inl ⟨hr, u, rest, ht, rfl⟩)
  · obtain rfl | ⟨hr, hb, hc⟩ := sequencerTurn_cases h
    · exact .inl (.inr rfl)
    · exact .inr (.inr (.inl ⟨⟨hr, hb, .inr ⟨rest, ht⟩⟩, hc⟩))
  · cases h; exact .inr (.inr (.inr ⟨⟨rest, .inl ht⟩, true, rfl⟩))
  · obtain rfl | rfl := releaseTurn_cases h
    · exact .inl (.inr rfl)
    · exact .inr (.inr (.inr ⟨⟨rest, .inr ht⟩, false, rfl⟩))

end Sys2Proof.Machine
end

section
/-! The register map (spec 10_state.md R21, R22): the index a register is found at, and the reserved offsets. -/

namespace Sys2Proof.Machine

theorem regOffset_of_findReg {off : Nat} {rs : List Reg} {r : Reg} (h : findReg off rs = some r) : regOffset r = off := by
  induction rs with
  | nil => cases h
  | cons x xs ih =>
    unfold findReg at h
    split at h
    · next hx => cases h; exact hx
    · exact ih h

/-- The register at an index has that index. -/
theorem eq_regIndex_of_regAt {index : BitVec 6} {r : Reg} (h : regAt index = some r) : index = regIndex r := by
  have hoff : regOffset r = index.toNat * 4 := regOffset_of_findReg h
  simp [regIndex, hoff]

/-- No register lies at `0x90` or above (R22). -/
theorem regAt_reserved : ∀ index : BitVec 6, 0x90 / 4 ≤ index.toNat → regAt index = none := by decide

/-- A write to a reserved offset is discarded (R22). -/
theorem State.wr_reserved {s : State} {index : BitVec 6} (hb : s.busy = false) (hi : regAt index = none) (v : Word) :
    s.wr index v = s := by
  simp [State.wr, hb, hi]

/-- A read of a reserved offset answers 0 (R22). -/
theorem State.rd_reserved {s : State} {index : BitVec 6} (hb : s.busy = false) (hi : regAt index = none) :
    s.rd index = { s with rdata := some 0#32 } := by
  simp [State.rd, State.readPort, hb, hi]

/-- A read while a command is in flight changes nothing but the port's answer (R76). -/
theorem State.rd_busy {s : State} (hb : s.busy = true) (index : BitVec 6) :
    s.rd index = { s with rdata := some (s.readPort index) } := by
  simp [State.rd, hb]

/-- What a host write does: while busy nothing but `WRBUSY`, else the write of the register there, if there is one. -/
theorem State.wr_cases (s : State) (index : BitVec 6) (v : Word) :
    (s.busy = true ∧ s.wr index v = { s with wrbusy := true }) ∨
    (s.busy = false ∧ s.wr index v = s) ∨
    (s.busy = false ∧ ∃ r, index = regIndex r ∧ s.wr index v = s.writeReg r v) := by
  rcases Bool.eq_false_or_eq_true s.busy with hb | hb
  · exact .inl ⟨hb, State.wr_busy hb index v⟩
  · cases hr : regAt index with
    | none => exact .inr (.inl ⟨hb, State.wr_reserved hb hr v⟩)
    | some r =>
      obtain rfl := eq_regIndex_of_regAt hr
      exact .inr (.inr ⟨hb, r, rfl, State.wr_idle hb r v⟩)

/-- What a host read does besides its answer: at most it moves `BUF_ADDR` (R72, R84). -/
theorem State.rd_cases (s : State) (index : BitVec 6) :
    ∃ x, s.rd index = { s with rdata := some x } ∨ s.rd index = { s.bumpAddr with rdata := some x } := by
  rcases Bool.eq_false_or_eq_true s.busy with hb | hb
  · exact ⟨_, .inl (State.rd_busy hb index)⟩
  · cases hr : regAt index with
    | none => exact ⟨_, .inl (State.rd_reserved hb hr)⟩
    | some r =>
      obtain rfl := eq_regIndex_of_regAt hr
      rw [State.rd_idle hb r]
      cases r with
      | bufData => exact ⟨_, .inr rfl⟩
      | _ => exact ⟨_, .inl rfl⟩

/-- A store of the port reaches no memory but the five that the host can write (R74). -/
theorem State.storeElement_frame (s : State) (b : Buf) (a : Nat) (v : Word) :
    s.storeElement b a v =
      { s with
        ibuf := (s.storeElement b a v).ibuf, salt := (s.storeElement b a v).salt, pass := (s.storeElement b a v).pass
        keyn := (s.storeElement b a v).keyn, keyx := (s.storeElement b a v).keyx } := by
  cases b <;> rfl

theorem State.storeData_frame (s : State) (v : Word) :
    s.storeData v =
      { s with
        ibuf := (s.storeData v).ibuf, salt := (s.storeData v).salt, pass := (s.storeData v).pass
        keyn := (s.storeData v).keyn, keyx := (s.storeData v).keyx } := by
  cases h : bufOf s.bufSel with
  | none => rw [State.storeData_of_none h]
  | some b =>
    rw [State.storeData_of h]
    split
    · exact State.storeElement_frame s b _ v
    · rfl

end Sys2Proof.Machine
end

section
/-! The invariant of every run (log entry 17): it holds at reset, each operation of the machine keeps it, so every step does
(spec 10_state.md R59, R68, 20_memory.md R76, 60_exceptions.md R220, 93_implementation_defined.md U1). -/

namespace Sys2Proof.Machine

/-! ### Reset -/

theorem Memory.writtenTo_zero {w : Nat} (m : Memory w) : m.writtenTo 0 := fun k hk => absurd hk (Nat.not_lt_zero k)

theorem zero_ne_io : 0#3 ≠ 2#3 := by decide

theorem inv_resetWith (p : Params) : Inv (State.resetWith p) where
  ibufWf := Memory.unknown_wf ..
  obufWf := Memory.unknown_wf ..
  saltWf := Memory.unknown_wf ..
  passWf := Memory.unknown_wf ..
  ivWf := Memory.unknown_wf ..
  keynWf := Memory.unknown_wf ..
  keyxWf := Memory.unknown_wf ..
  busyDone _ := rfl
  busyErr _ := rfl
  busyErrcode _ := rfl
  noIoError := zero_ne_io
  outLenCap := Nat.zero_le _
  vecSizeCap := Nat.zero_le _
  outWritten := Memory.writtenTo_zero _
  ivWritten := Memory.writtenTo_zero _
  resetIdle _ := rfl

/-- Settles O28: nothing of the invariant depends on the parameters at reset, the default ones among them. -/
theorem resetKeepsTheInvariant : Obligations.ResetKeepsTheInvariant :=
  ⟨inv_resetWith, inv_resetWith Config.defaults⟩

/-- The level of `rst`, the run and the count of turns do not matter to the registers reset leaves. -/
theorem inv_resetRegisters (s : State) (level : Bool) : Inv { s.resetRegisters with rst := level } :=
  { inv_resetWith s.par with resetIdle := fun _ => rfl }

/-! ### What the invariant does not speak of

Every part of the invariant is the same proposition after these updates; `resetIdle` is named only so that the structure is
built anew at the new state. -/

theorem Inv.advance {s : State} (h : Inv s) : Inv s.advance := { h with resetIdle := h.resetIdle }

theorem Inv.withRdata {s : State} (h : Inv s) (x : Option Word) : Inv { s with rdata := x } :=
  { h with resetIdle := h.resetIdle }

theorem Inv.withWrbusy {s : State} (h : Inv s) (b : Bool) : Inv { s with wrbusy := b } :=
  { h with resetIdle := h.resetIdle }

theorem Inv.bumpAddr {s : State} (h : Inv s) : Inv s.bumpAddr := { h with resetIdle := h.resetIdle }

theorem Inv.storeHeader {s : State} (h : Inv s) (hdr : Header) : Inv (s.storeHeader hdr) :=
  { h with resetIdle := h.resetIdle }

/-! ### The host port -/

/-- Accept clears the three status fields, and needs `rst` low (R96, R250). -/
theorem Inv.accept {s : State} (h : Inv s) (hr : s.rst = false) (w : Word) : Inv (s.accept w) :=
  { h with
    busyDone := fun _ => rfl
    busyErr := fun _ => rfl
    busyErrcode := fun _ => rfl
    noIoError := zero_ne_io
    resetIdle := fun hr' => absurd (hr.symm.trans hr') Bool.false_ne_true }

/-- Clearing status bits keeps those that are 0 at 0. -/
theorem Inv.clearStatus {s : State} (h : Inv s) (v : Word) : Inv (s.clearStatus v) :=
  { h with
    busyDone := fun hb => by simp [h.busyDone hb]
    busyErr := fun hb => by simp [h.busyErr hb] }

/-- The port stores inside the capacity, and never into OBUF or IV (R74). -/
theorem Inv.storeElement {s : State} (h : Inv s) {b : Buf} {a : Nat} (ha : a < s.par.capacity b) (v : Word) :
    Inv (s.storeElement b a v) := by
  cases b with
  | ibuf => exact { h with ibufWf := Memory.write_wf h.ibufWf ha _ }
  | obuf => exact h
  | salt => exact { h with saltWf := Memory.write_wf h.saltWf ha _ }
  | pass => exact { h with passWf := Memory.write_wf h.passWf ha _ }
  | iv => exact h
  | keyn => exact { h with keynWf := Memory.write_wf h.keynWf ha _ }
  | keyx => exact { h with keyxWf := Memory.write_wf h.keyxWf ha _ }

theorem Inv.storeData {s : State} (h : Inv s) (v : Word) : Inv (s.storeData v) := by
  cases hsel : bufOf s.bufSel with
  | none => rwa [State.storeData_of_none hsel]
  | some b =>
    rw [State.storeData_of hsel]
    split
    · next ha => exact h.storeElement ha v
    · exact h

/-- Of the writable registers only `CMD`, `STATUS` and `BUF_DATA` reach what the invariant speaks of. -/
theorem Inv.writeReg {s : State} (h : Inv s) (hr : s.rst = false) (r : Reg) (v : Word) : Inv (s.writeReg r v) := by
  cases r with
  | cmd => exact h.accept hr v
  | status => exact h.clearStatus v
  | bufData => exact (h.storeData v).bumpAddr
  | _ => exact { h with resetIdle := h.resetIdle }

theorem Inv.rd {s : State} (h : Inv s) (index : BitVec 6) : Inv (s.rd index) := by
  obtain ⟨x, hrd | hrd⟩ := s.rd_cases index <;> rw [hrd]
  · exact h.withRdata _
  · exact h.bumpAddr.withRdata _

theorem Inv.wr {s : State} (h : Inv s) (hr : s.rst = false) (index : BitVec 6) (v : Word) : Inv (s.wr index v) := by
  obtain ⟨-, hwr⟩ | ⟨-, hwr⟩ | ⟨-, r, -, hwr⟩ := s.wr_cases index v <;> rw [hwr]
  · exact h.withWrbusy true
  · exact h
  · exact h.writeReg hr r v

theorem Inv.transact {s : State} (h : Inv s) (hr : s.rst = false) (u : Transaction) : Inv (s.transact u) := by
  cases u with
  | rd index => exact h.rd index
  | wr index v => exact h.wr hr index v

/-! ### The two ends of a commit -/

/-- A state in which no command is in flight owes nothing to the status fields but a code that is not `E_IO`. -/
theorem Inv.succeed {s : State} (h : Inv s) : Inv s.succeed :=
  { h with
    busyDone := fun hb => absurd hb Bool.false_ne_true
    busyErr := fun _ => rfl
    busyErrcode := fun _ => rfl
    noIoError := zero_ne_io
    resetIdle := fun _ => rfl }

theorem Inv.fail {s : State} (h : Inv s) {e : ErrCode} (he : errNumber e ≠ 2#3) : Inv (s.fail e) :=
  { h with
    busyDone := fun hb => absurd hb Bool.false_ne_true
    busyErr := fun hb => absurd hb Bool.false_ne_true
    busyErrcode := fun hb => absurd hb Bool.false_ne_true
    noIoError := he
    resetIdle := fun _ => rfl }

theorem Inv.dropOutput {s : State} (h : Inv s) : Inv s.dropOutput :=
  { h with
    outLenCap := Nat.zero_le _
    outWritten := Memory.writtenTo_zero _ }

/-! ### The writes of the commands -/

/-- The gate that counts a stored sequence is at most its length, whatever 32 bits do to it. -/
theorem toNat_ofNat_length_le {α : Type} (l : List α) : (BitVec.ofNat 32 l.length).toNat ≤ l.length :=
  (BitVec.toNat_ofNat _ _).le.trans (Nat.mod_le _ _)

/-- An output within the capacity writes every element that its `OUT_LEN` exposes (R34, U1). -/
theorem Inv.storeOutput {s : State} (h : Inv s) {out : List Byte} (ho : out.length ≤ s.par.dbuf) :
    Inv (s.storeOutput out) :=
  { h with
    obufWf := Memory.writeRange_wf h.obufWf (by rwa [Nat.zero_add])
    outLenCap := (toNat_ofNat_length_le out).trans ho
    outWritten := Memory.writtenTo_writeRange _ _ _ (toNat_ofNat_length_le out) }

/-- A schedule within the capacity writes every word that its `VEC_SIZE` exposes (R38, U1). -/
theorem Inv.storeSchedule {s : State} (h : Inv s) {words : List Word} (hw : words.length ≤ s.par.vecMax) (ival : DWord) :
    Inv (s.storeSchedule words ival) :=
  { h with
    ivWf := Memory.writeRange_wf h.ivWf (by rwa [Nat.zero_add])
    vecSizeCap := (toNat_ofNat_length_le words).trans hw
    ivWritten := Memory.writtenTo_writeRange _ _ _ (toNat_ofNat_length_le words) }

theorem le_dbuf_of_le_bufferSize {p : Params} {n : Nat} (h : n ≤ p.bufferSize) : n ≤ p.dbuf :=
  h.trans (Nat.le_add_right _ _)

theorem Inv.storeChunk {s : State} (h : Inv s) (crc field : Word) {c : List Byte} (hc : c.length ≤ s.par.bufferSize) :
    Inv (s.storeChunk crc field c) := by
  have hlen : (hdrBytes s.par s.hType s.inLen s.encEsize crc field ++ c).length ≤ s.par.dbuf := by
    simp only [List.length_append, hdrBytes_length, Params.dbuf, Config.hdrLen]
    omega
  exact { h.storeOutput hlen with resetIdle := h.resetIdle }

theorem Inv.cleanup {s : State} (h : Inv s) : Inv s.cleanup :=
  { h with
    ivWf := Memory.zeros_wf ..
    keynWf := Memory.zeros_wf ..
    keyxWf := Memory.zeros_wf ..
    vecSizeCap := Nat.zero_le _
    ivWritten := Memory.writtenTo_zero _ }

/-- The checks of each command keep what it stores within the capacities. -/
theorem Inv.evalOf_ok {i : Instr} {s u : State} (h : Inv s) (hu : evalOf i s = .ok u) : Inv u := by
  cases i with
  | nop => cases hu; exact h
  | cleanup => cases hu; exact h.cleanup
  | crcRun => obtain ⟨-, rfl⟩ := evalCrc_ok_iff.1 hu; exact { h with resetIdle := h.resetIdle }
  | crcCont => obtain ⟨-, rfl⟩ := evalCrc_ok_iff.1 hu; exact { h with resetIdle := h.resetIdle }
  | modpow => obtain ⟨-, rfl⟩ := evalModpow_ok_iff.1 hu; exact { h with resetIdle := h.resetIdle }
  | isprime => obtain ⟨-, -, rfl⟩ := evalIsprime_ok_iff.1 hu; exact { h with resetIdle := h.resetIdle }
  | ksDerive =>
    obtain ⟨vs, hvs, rfl⟩ := evalKsDerive_ok_iff.1 hu
    obtain ⟨-, -, -, -, hcap, rfl⟩ := ksChecks_ok_iff.1 hvs
    exact h.storeSchedule (by rwa [ivWords_length]) _
  | xform =>
    obtain ⟨-, hlen, rfl⟩ := evalXform_ok_iff.1 hu
    exact h.storeOutput (by simpa using le_dbuf_of_le_bufferSize hlen)
  | hdrPack =>
    obtain ⟨-, rfl⟩ := evalHdrPack_ok_iff.1 hu
    exact h.storeOutput (Nat.le_add_left _ _)
  | hdrUnpack => obtain ⟨hdr, -, rfl⟩ := evalHdrUnpack_ok_iff.1 hu; exact h.storeHeader hdr
  | encChunk =>
    obtain ⟨hchk, c, field, hshift, rfl⟩ := evalEncChunk_ok_iff.1 hu
    obtain ⟨-, -, -, hlen, -⟩ := encChecks_ok_iff.1 hchk
    exact h.storeChunk _ field (by simpa [State.encShift_length hshift] using hlen)
  | decChunk =>
    obtain ⟨hdr, q, hchk, hshift, -, rfl⟩ := evalDecChunk_ok_iff.1 hu
    obtain ⟨-, -, -, -, hlen, -⟩ := decChecks_ok_iff.1 hchk
    have hq : (s.process hdr.crc q).length ≤ s.par.dbuf := by
      simpa [State.decShift_length hshift] using le_dbuf_of_le_bufferSize hlen
    exact (h.storeOutput hq).storeHeader hdr

/-! ### Steps -/

/-- No command has `E_IO` in its column of R98 (R220). -/
theorem errNumber_ne_io_of_evalOf {i : Instr} {s : State} {e : ErrCode} (h : evalOf i s = .error e) : errNumber e ≠ 2#3 := by
  have hmem : errNumber e ∈ failureCodes i := evalOf_error h
  rintro he
  rw [he] at hmem
  revert hmem
  cases i <;> decide

theorem Inv.exec {i : Instr} {s t : State} (h : Inv s) (ht : exec i s = .next t) : Inv t := by
  obtain ⟨u, hu, rfl⟩ | ⟨e, he, rfl⟩ := exec_cases ht
  · exact (h.evalOf_ok hu).succeed
  · have hfail : Inv (s.fail e) := h.fail (errNumber_ne_io_of_evalOf he)
    split
    · exact hfail.dropOutput
    · exact hfail

theorem Inv.commitStep {s t : State} (h : Inv s) (ht : commitStep s = .next t) : Inv t := by
  obtain ⟨i, -, hi⟩ | ⟨e, -, rfl⟩ := commitStep_cases ht
  · exact h.exec hi
  · exact h.fail (by decide)

theorem Inv.step {s t : State} (h : Inv s) (ht : step s = .next t) : Inv t := by
  obtain (rfl | rfl) | ⟨hr, u, -, -, rfl⟩ | ⟨-, hc⟩ | ⟨-, level, rfl⟩ := step_next_cases ht
  · exact h
  · exact h.advance
  · exact h.advance.transact hr u
  · exact h.advance.commitStep hc
  · exact inv_resetRegisters s.advance level

/-- Settles O29: whatever a step performs keeps the invariant. -/
theorem everyStepKeepsTheInvariant : Obligations.EveryStepKeepsTheInvariant :=
  fun _ _ h ht => h.step ht

end Sys2Proof.Machine
end

section
/-! `WRBUSY` and the commands (spec 10_state.md R67): no command reads or writes it, so that a host write discarded while a
command is in flight does not reach the commit. -/

namespace Sys2Proof.Machine

/-- The state with another `WRBUSY`: what a host write while busy makes of it (R76). -/
def State.withWrbusy (s : State) (b : Bool) : State := { s with wrbusy := b }

section
variable (s : State) (b : Bool)

/-! ### What the commands read is not `WRBUSY` -/

@[simp] theorem State.withWrbusy_inLen : (s.withWrbusy b).inLen = s.inLen := rfl
@[simp] theorem State.withWrbusy_mpBase : (s.withWrbusy b).mpBase = s.mpBase := rfl
@[simp] theorem State.withWrbusy_mpExp : (s.withWrbusy b).mpExp = s.mpExp := rfl
@[simp] theorem State.withWrbusy_mpMod : (s.withWrbusy b).mpMod = s.mpMod := rfl
@[simp] theorem State.withWrbusy_prN : (s.withWrbusy b).prN = s.prN := rfl
@[simp] theorem State.withWrbusy_ibufBytes (i n : Nat) : (s.withWrbusy b).ibufBytes i n = s.ibufBytes i n := rfl
@[simp] theorem State.withWrbusy_process (crc : Word) (block : List Byte) :
    (s.withWrbusy b).process crc block = s.process crc block := rfl
@[simp] theorem State.withWrbusy_encShift (crc : Word) (t : List Byte) :
    (s.withWrbusy b).encShift crc t = s.encShift crc t := rfl
@[simp] theorem State.withWrbusy_decShift (field : Word) (p : List Byte) :
    (s.withWrbusy b).decShift field p = s.decShift field p := rfl
@[simp] theorem ksChecks_withWrbusy : ksChecks (s.withWrbusy b) = ksChecks s := rfl
@[simp] theorem checkHeader_withWrbusy : checkHeader (s.withWrbusy b) = checkHeader s := rfl
@[simp] theorem encChecks_withWrbusy : encChecks (s.withWrbusy b) = encChecks s := rfl
@[simp] theorem decChecks_withWrbusy : decChecks (s.withWrbusy b) = decChecks s := rfl

/-! ### The evaluations carry `WRBUSY` along -/

theorem evalCrc_withWrbusy (start : Word) :
    evalCrc start (s.withWrbusy b) = (evalCrc start s).map (·.withWrbusy b) := by
  unfold evalCrc
  rw [apply_ite (Except.map _)]
  rfl

theorem evalModpow_withWrbusy : evalModpow (s.withWrbusy b) = (evalModpow s).map (·.withWrbusy b) := by
  simp only [evalModpow, State.withWrbusy_mpBase, State.withWrbusy_mpExp, State.withWrbusy_mpMod]
  cases modpowF s.mpBase s.mpExp s.mpMod <;> rfl

theorem evalIsprime_withWrbusy : evalIsprime (s.withWrbusy b) = (evalIsprime s).map (·.withWrbusy b) := by
  simp only [evalIsprime, State.withWrbusy_prN]
  cases isPrimeF s.prN.toNat <;> rfl

theorem evalKsDerive_withWrbusy : evalKsDerive (s.withWrbusy b) = (evalKsDerive s).map (·.withWrbusy b) := by
  simp only [evalKsDerive, ksChecks_withWrbusy]
  cases ksChecks s <;> rfl

theorem evalXform_withWrbusy : evalXform (s.withWrbusy b) = (evalXform s).map (·.withWrbusy b) := by
  unfold evalXform
  rw [apply_ite (Except.map _), apply_ite (Except.map _)]
  rfl

theorem evalHdrPack_withWrbusy : evalHdrPack (s.withWrbusy b) = (evalHdrPack s).map (·.withWrbusy b) := by
  unfold evalHdrPack
  rw [apply_ite (Except.map _)]
  rfl

theorem evalHdrUnpack_withWrbusy : evalHdrUnpack (s.withWrbusy b) = (evalHdrUnpack s).map (·.withWrbusy b) := by
  simp only [evalHdrUnpack, checkHeader_withWrbusy]
  cases checkHeader s <;> rfl

theorem evalEncChunk_withWrbusy : evalEncChunk (s.withWrbusy b) = (evalEncChunk s).map (·.withWrbusy b) := by
  simp only [evalEncChunk, encChecks_withWrbusy, State.withWrbusy_inLen, State.withWrbusy_ibufBytes,
    State.withWrbusy_process, State.withWrbusy_encShift]
  cases encChecks s with
  | error e => rfl
  | ok _ =>
    dsimp only
    cases s.encShift _ _ <;> rfl

theorem evalDecChunk_withWrbusy : evalDecChunk (s.withWrbusy b) = (evalDecChunk s).map (·.withWrbusy b) := by
  simp only [evalDecChunk, decChecks_withWrbusy, State.withWrbusy_ibufBytes, State.withWrbusy_process,
    State.withWrbusy_decShift]
  cases decChecks s with
  | error e => rfl
  | ok h =>
    dsimp only
    cases s.decShift _ _ with
    | error e => rfl
    | ok q =>
      dsimp only
      rw [apply_ite (Except.map _)]
      rfl

theorem evalOf_withWrbusy (i : Instr) : evalOf i (s.withWrbusy b) = (evalOf i s).map (·.withWrbusy b) := by
  cases i with
  | nop => rfl
  | cleanup => rfl
  | crcRun => exact evalCrc_withWrbusy s b s.crcInit
  | crcCont => exact evalCrc_withWrbusy s b s.crcRaw
  | modpow => exact evalModpow_withWrbusy s b
  | isprime => exact evalIsprime_withWrbusy s b
  | ksDerive => exact evalKsDerive_withWrbusy s b
  | xform => exact evalXform_withWrbusy s b
  | hdrPack => exact evalHdrPack_withWrbusy s b
  | hdrUnpack => exact evalHdrUnpack_withWrbusy s b
  | encChunk => exact evalEncChunk_withWrbusy s b
  | decChunk => exact evalDecChunk_withWrbusy s b

end

/-! ### Commits -/

/-- A command does the same whatever `WRBUSY` is, and leaves it. -/
theorem exec_withWrbusy {i : Instr} {s t : State} (h : exec i s = .next t) (b : Bool) :
    exec i (s.withWrbusy b) = .next (t.withWrbusy b) := by
  obtain ⟨u, hu, rfl⟩ | ⟨e, he, rfl⟩ := exec_cases h
  · exact exec_of_ok (u := u.withWrbusy b) (by rw [evalOf_withWrbusy, hu]; rfl)
  · have he' : evalOf i (s.withWrbusy b) = .error e := by rw [evalOf_withWrbusy, he]; rfl
    rw [exec_of_error he']
    cases dropsOutput i <;> rfl

theorem commitStep_of_ok {s : State} {i : Instr} (h : decode s.cmd = .ok i) : commitStep s = exec i s := by
  simp only [commitStep, h]

theorem commitStep_of_error {s : State} {e : DecodeError} (h : decode s.cmd = .error e) :
    commitStep s = .next (s.fail .illcmd) := by
  simp only [commitStep, h, commit_error]

theorem commitStep_withWrbusy {s t : State} (h : commitStep s = .next t) (b : Bool) :
    commitStep (s.withWrbusy b) = .next (t.withWrbusy b) := by
  obtain ⟨i, hi, hex⟩ | ⟨e, he, rfl⟩ := commitStep_cases h
  · rw [commitStep_of_ok (s := s.withWrbusy b) hi]
    exact exec_withWrbusy hex b
  · exact commitStep_of_error (s := s.withWrbusy b) he

/-- A commit keeps `WRBUSY`: it is the commit of the state with the `WRBUSY` it has. -/
theorem commitStep_wrbusy {s t : State} (h : commitStep s = .next t) : t.wrbusy = s.wrbusy := by
  have hsame : commitStep (s.withWrbusy s.wrbusy) = .next (t.withWrbusy s.wrbusy) := commitStep_withWrbusy h s.wrbusy
  have hts : t = t.withWrbusy s.wrbusy := Host.Outcome.next.inj (h.symm.trans hsame)
  exact (congrArg State.wrbusy hts :)

/-- Settles O16: the discarded write is an update of `WRBUSY` alone. -/
theorem busyWriteDoesNotDisturbTheCommit : Obligations.BusyWriteDoesNotDisturbTheCommit := by
  intro s index v t hb h
  rw [State.wr_busy hb]
  exact commitStep_withWrbusy h true

/-! ### Host transactions -/

theorem State.writeReg_wrbusy (s : State) {r : Reg} (hr : r ≠ .status) (v : Word) :
    (s.writeReg r v).wrbusy = s.wrbusy := by
  cases r with
  | status => exact absurd rfl hr
  | bufData => exact (congrArg State.wrbusy (s.storeData_frame v) :)
  | _ => rfl

theorem State.rd_wrbusy (s : State) (index : BitVec 6) : (s.rd index).wrbusy = s.wrbusy := by
  obtain ⟨x, hrd | hrd⟩ := s.rd_cases index <;> simp [hrd]

/-- Only a write moves `WRBUSY`: any write sets it while busy, and a write of 1 to its bit clears it while idle. -/
theorem State.transact_wrbusy (s : State) (u : Transaction) :
    (s.transact u).wrbusy = s.wrbusy ∨
    (s.busy = true ∧ (∃ index v, u = .wr index v) ∧ (s.transact u).wrbusy = true) ∨
    (s.busy = false ∧ ∃ v, u = .wr (regIndex .status) v ∧ (s.transact u).wrbusy = (s.wrbusy && !v.getLsbD 3)) := by
  cases u with
  | rd index => exact .inl (s.rd_wrbusy index)
  | wr index v =>
    simp only [State.transact]
    obtain ⟨hb, hwr⟩ | ⟨-, hwr⟩ | ⟨hb, r, rfl, hwr⟩ := s.wr_cases index v <;> rw [hwr]
    · exact .inr (.inl ⟨hb, ⟨index, v, rfl⟩, rfl⟩)
    · exact .inl rfl
    · by_cases hr : r = .status
      · subst hr
        exact .inr (.inr ⟨hb, v, rfl, rfl⟩)
      · exact .inl (s.writeReg_wrbusy hr v)

/-- A flag that keeps its value is neither cleared nor set. -/
theorem not_moved_of_eq {a b : Bool} (h : b = a) {P Q : Prop} :
    (a = true → b = false → P) ∧ (a = false → b = true → Q) := by
  subst h
  cases b <;> simp

/-- Settles O14, by what the step performs: only a host write or a change of `rst` moves `WRBUSY`. -/
theorem writeBusyFlagIsSticky : Obligations.WriteBusyFlagIsSticky := by
  intro s t h
  obtain (rfl | rfl) | ⟨hr, u, rest, hu, rfl⟩ | ⟨-, hc⟩ | ⟨hreset, level, rfl⟩ := step_next_cases h
  · exact not_moved_of_eq rfl
  · exact not_moved_of_eq rfl
  · obtain hk | ⟨hb, ⟨index, v, rfl⟩, ht⟩ | ⟨hb, v, rfl, ht⟩ := s.advance.transact_wrbusy u
    · exact not_moved_of_eq hk
    · rw [ht]
      exact ⟨fun _ h2 => absurd h2.symm Bool.false_ne_true, fun _ _ => ⟨hr, hb, index, v, rest, hu⟩⟩
    · rw [ht]
      refine ⟨fun h1 h2 => .inl ⟨hr, hb, v, rest, hu, ?_⟩, fun h1 h2 => ?_⟩
      · simpa [h1] using h2
      · simp [h1] at h2
  · exact not_moved_of_eq (commitStep_wrbusy (s := s.advance) hc)
  · exact ⟨fun _ _ => .inr hreset, fun _ h2 => absurd h2 Bool.false_ne_true⟩

end Sys2Proof.Machine
end

section
/-! The key schedule and the output (spec 10_state.md R34, R38, R61, R64, 30_encoding.md R98): what stands behind the two gates,
and that only the commands that own it and reset change it. -/

namespace Sys2Proof.Machine

/-- The key schedule: `VEC_SIZE`, `IVAL` and IV. -/
def State.schedule (s : State) : Word × Word × Word × Memory 32 := (s.vecSize, s.ivalLo, s.ivalHi, s.iv)

/-- The output: OBUF and `OUT_LEN`. -/
def State.output (s : State) : Memory 8 × Word := (s.obuf, s.outLen)

theorem State.schedule_eq_iff {s t : State} :
    t.schedule = s.schedule ↔ t.vecSize = s.vecSize ∧ t.ivalLo = s.ivalLo ∧ t.ivalHi = s.ivalHi ∧ t.iv = s.iv := by
  simp [State.schedule]

theorem State.output_eq_iff {s t : State} : t.output = s.output ↔ t.obuf = s.obuf ∧ t.outLen = s.outLen := by
  simp [State.output]

/-! ### Commands -/

/-- Of the evaluations only those of KS_DERIVE and CLEANUP write the schedule. -/
theorem evalOf_ok_schedule {i : Instr} {s u : State} (hi : i ∉ [Instr.ksDerive, .cleanup]) (h : evalOf i s = .ok u) :
    u.schedule = s.schedule := by
  cases i with
  | nop => cases h; rfl
  | cleanup => simp at hi
  | crcRun => obtain ⟨-, rfl⟩ := evalCrc_ok_iff.1 h; rfl
  | crcCont => obtain ⟨-, rfl⟩ := evalCrc_ok_iff.1 h; rfl
  | modpow => obtain ⟨-, rfl⟩ := evalModpow_ok_iff.1 h; rfl
  | isprime => obtain ⟨-, -, rfl⟩ := evalIsprime_ok_iff.1 h; rfl
  | ksDerive => simp at hi
  | xform => obtain ⟨-, -, rfl⟩ := evalXform_ok_iff.1 h; rfl
  | hdrPack => obtain ⟨-, rfl⟩ := evalHdrPack_ok_iff.1 h; rfl
  | hdrUnpack => obtain ⟨-, -, rfl⟩ := evalHdrUnpack_ok_iff.1 h; rfl
  | encChunk => obtain ⟨-, -, -, -, rfl⟩ := evalEncChunk_ok_iff.1 h; rfl
  | decChunk => obtain ⟨-, -, -, -, -, rfl⟩ := evalDecChunk_ok_iff.1 h; rfl

/-- Of the evaluations only those of the commands that drop their output when they fail write it. -/
theorem evalOf_ok_output {i : Instr} {s u : State} (hi : dropsOutput i = false) (h : evalOf i s = .ok u) :
    u.output = s.output := by
  cases i with
  | nop => cases h; rfl
  | cleanup => cases h; rfl
  | crcRun => obtain ⟨-, rfl⟩ := evalCrc_ok_iff.1 h; rfl
  | crcCont => obtain ⟨-, rfl⟩ := evalCrc_ok_iff.1 h; rfl
  | modpow => obtain ⟨-, rfl⟩ := evalModpow_ok_iff.1 h; rfl
  | isprime => obtain ⟨-, -, rfl⟩ := evalIsprime_ok_iff.1 h; rfl
  | ksDerive => obtain ⟨-, -, rfl⟩ := evalKsDerive_ok_iff.1 h; rfl
  | hdrUnpack => obtain ⟨-, -, rfl⟩ := evalHdrUnpack_ok_iff.1 h; rfl
  | xform | hdrPack | encChunk | decChunk => cases hi

theorem exec_schedule {i : Instr} {s t : State} (hi : i ∉ [Instr.ksDerive, .cleanup]) (h : exec i s = .next t) :
    t.schedule = s.schedule := by
  obtain ⟨u, hu, rfl⟩ | ⟨e, -, rfl⟩ := exec_cases h
  · exact (evalOf_ok_schedule hi hu :)
  · cases dropsOutput i <;> rfl

theorem exec_output {i : Instr} {s t : State} (hi : dropsOutput i = false) (h : exec i s = .next t) :
    t.output = s.output := by
  obtain ⟨u, hu, rfl⟩ | ⟨e, -, rfl⟩ := exec_cases h
  · exact (evalOf_ok_output hi hu :)
  · rw [hi]; rfl

theorem mem_of_dropsOutput {i : Instr} (h : dropsOutput i = true) : i ∈ [Instr.xform, .hdrPack, .encChunk, .decChunk] := by
  revert h
  cases i <;> decide

/-- A commit that changes the schedule is that of KS_DERIVE or CLEANUP. -/
theorem commitStep_schedule {s t : State} (h : commitStep s = .next t) :
    t.schedule = s.schedule ∨ ∃ i ∈ [Instr.ksDerive, .cleanup], decode s.cmd = .ok i := by
  obtain ⟨i, hi, hex⟩ | ⟨e, -, rfl⟩ := commitStep_cases h
  · by_cases hmem : i ∈ [Instr.ksDerive, .cleanup]
    · exact .inr ⟨i, hmem, hi⟩
    · exact .inl (exec_schedule hmem hex)
  · exact .inl rfl

/-- A commit that changes the output is that of a command that produces one. -/
theorem commitStep_output {s t : State} (h : commitStep s = .next t) :
    t.output = s.output ∨ ∃ i ∈ [Instr.xform, .hdrPack, .encChunk, .decChunk], decode s.cmd = .ok i := by
  obtain ⟨i, hi, hex⟩ | ⟨e, -, rfl⟩ := commitStep_cases h
  · cases hd : dropsOutput i with
    | true => exact .inr ⟨i, mem_of_dropsOutput hd, hi⟩
    | false => exact .inl (exec_output hd hex)
  · exact .inl rfl

/-! ### Host transactions -/

theorem State.writeReg_gated (s : State) (r : Reg) (v : Word) :
    (s.writeReg r v).schedule = s.schedule ∧ (s.writeReg r v).output = s.output := by
  cases r with
  | bufData =>
    exact ⟨(congrArg State.schedule (s.storeData_frame v) :), (congrArg State.output (s.storeData_frame v) :)⟩
  | _ => exact ⟨rfl, rfl⟩

/-- No transaction reaches what stands behind a gate (R74). -/
theorem State.transact_gated (s : State) (u : Transaction) :
    (s.transact u).schedule = s.schedule ∧ (s.transact u).output = s.output := by
  cases u with
  | rd index =>
    simp only [State.transact]
    obtain ⟨x, hrd | hrd⟩ := s.rd_cases index <;> rw [hrd] <;> exact ⟨rfl, rfl⟩
  | wr index v =>
    simp only [State.transact]
    obtain ⟨-, hwr⟩ | ⟨-, hwr⟩ | ⟨-, r, -, hwr⟩ := s.wr_cases index v <;> rw [hwr]
    · exact ⟨rfl, rfl⟩
    · exact ⟨rfl, rfl⟩
    · exact s.writeReg_gated r v

/-! ### Steps -/

/-- What stands behind the gates stays, unless the step is a commit or a change of `rst`. -/
theorem step_gated {s t : State} (h : step s = .next t) :
    (t.schedule = s.schedule ∧ t.output = s.output) ∨ (CommitDue s ∧ commitStep s.advance = .next t) ∨ ResetDue s := by
  obtain (rfl | rfl) | ⟨-, u, -, -, rfl⟩ | hc | ⟨hreset, -⟩ := step_next_cases h
  · exact .inl ⟨rfl, rfl⟩
  · exact .inl ⟨rfl, rfl⟩
  · exact .inl (s.advance.transact_gated u)
  · exact .inr (.inl hc)
  · exact .inr (.inr hreset)

theorem step_schedule {s t : State} (h : step s = .next t) :
    t.schedule = s.schedule ∨ (CommitDue s ∧ ∃ i ∈ [Instr.ksDerive, .cleanup], decode s.cmd = .ok i) ∨ ResetDue s := by
  obtain ⟨hk, -⟩ | ⟨hdue, hc⟩ | hreset := step_gated h
  · exact .inl hk
  · exact (commitStep_schedule hc).imp id fun hi => .inl ⟨hdue, hi⟩
  · exact .inr (.inr hreset)

theorem step_output {s t : State} (h : step s = .next t) :
    t.output = s.output ∨
    (CommitDue s ∧ ∃ i ∈ [Instr.xform, .hdrPack, .encChunk, .decChunk], decode s.cmd = .ok i) ∨ ResetDue s := by
  obtain ⟨-, hk⟩ | ⟨hdue, hc⟩ | hreset := step_gated h
  · exact .inl hk
  · exact (commitStep_output hc).imp id fun hi => .inl ⟨hdue, hi⟩
  · exact .inr (.inr hreset)

/-- Settles O15: where a field differs the schedule or the output does, and the step is one of those that may change it. -/
theorem onlyTheirCommandsMoveTheGatedMemories : Obligations.OnlyTheirCommandsMoveTheGatedMemories := by
  intro s t h committed reset
  constructor
  · intro hne
    obtain hk | ⟨⟨hr, hb, hturn⟩, hi⟩ | hreset := step_schedule h
    · obtain ⟨hvec, hlo, hhi, hiv⟩ := State.schedule_eq_iff.1 hk
      simp [hvec, hlo, hhi, hiv] at hne
    · exact .inl ⟨hr, hb, hturn, hi⟩
    · exact .inr hreset
  · intro hne
    obtain hk | ⟨⟨hr, hb, hturn⟩, hi⟩ | hreset := step_output h
    · obtain ⟨hobuf, hlen⟩ := State.output_eq_iff.1 hk
      simp [hobuf, hlen] at hne
    · exact .inl ⟨hr, hb, hturn, hi⟩
    · exact .inr hreset

end Sys2Proof.Machine
end

section
/-! What the port shows (spec 10_state.md R20 to R25, R46, R68, 20_memory.md R72, R84): the bits of `STATUS`, the interrupt output,
the register map, the reset values, and the gated memories. -/

namespace Sys2Proof.Machine

/-! ### `STATUS` and the interrupt output -/

/-- Each bit of `STATUS` is the flag of its position. -/
theorem State.statusWord_getLsbD (s : State) (k : Nat) :
    s.statusWord.getLsbD k =
      (s.busy && decide (k = 0) || s.done && decide (k = 1) || s.err && decide (k = 2) || s.wrbusy && decide (k = 3)
        || s.ksValid && decide (k = 4) || s.keyValid && decide (k = 5)) := by
  simp [State.statusWord, BitVec.getLsbD_or, flagAt_getLsbD]

/-- Settles O19, bit by bit. -/
theorem statusReadsItsBits : Obligations.StatusReadsItsBits := by
  intro s k
  have hks : s.ksValid = decide (s.vecSize ≠ 0#32) := Bool.eq_iff_iff.2 (by simp [State.ksValid])
  have hkey : s.keyValid = decide (s.keyLen ≠ 0#32) := Bool.eq_iff_iff.2 (by simp [State.keyValid])
  simp only [State.readReg, s.statusWord_getLsbD, hks, hkey]
  match k with
  | 0 | 1 | 2 | 3 | 4 | 5 | n + 6 => simp

theorem and_not_eq_ite (a b : Bool) : (a && !b) = if b then false else a := by cases b <;> simp

/-- The interrupt output spelt out (R226). -/
theorem State.irq_iff (s : State) :
    s.irq = true ↔ (s.done = true ∧ s.doneIe = true) ∨ (s.err = true ∧ s.errIe = true) := by
  simp [State.irq]

/-- Settles O20: the write is `clearStatus`, and the interrupt output a function of the four bits before and after. -/
theorem statusWriteClearsOnlyWrittenOnes : Obligations.StatusWriteClearsOnlyWrittenOnes := by
  intro s v hb
  rw [State.wr_idle hb, State.wr_idle hb]
  refine ⟨?_, s.irq_iff, ?_, State.irq_iff _⟩
  · simp only [State.writeReg, State.clearStatus, and_not_eq_ite]
  · rw [State.irq_iff]
    simp [State.writeReg, and_assoc]

/-! ### The register map -/

/-- The registers that take no write (R21). -/
def readOnlyRegs : List Reg := [.id, .errcode, .sig, .outLen, .vecSize, .ivalLo, .ivalHi, .crcRaw, .crcOut, .mpRes, .prRes]

theorem State.writeReg_readOnly (s : State) {r : Reg} (h : r ∈ readOnlyRegs) (v : Word) : s.writeReg r v = s := by
  simp only [readOnlyRegs, List.mem_cons, List.not_mem_nil, or_false] at h
  rcases h with rfl | rfl | rfl | rfl | rfl | rfl | rfl | rfl | rfl | rfl | rfl <;> rfl

theorem State.readEffect_of_ne {r : Reg} (h : r ≠ .bufData) (s : State) : s.readEffect r = s := by
  cases r with
  | bufData => exact absurd rfl h
  | _ => rfl

theorem flagAt_eq_ite (b : Bool) (k : Nat) : flagAt b k = if b then 1#32 <<< k else 0#32 := by
  cases b <;> simp [flagAt]

/-- Settles O22: the lists are the register map itself, read through each register's own field. -/
theorem readOnlyAndReservedOffsetsTakeNoWrite : Obligations.ReadOnlyAndReservedOffsetsTakeNoWrite := by
  refine ⟨by decide, fun s v hb => ⟨fun p hp => ?_, fun off hoff => ?_, fun index hi => ?_⟩⟩
  · have hmap : p ∈ (allRegs.filter (· ≠ .bufData)).map fun r => (regOffset r, s.readReg r) := by
      convert hp using 1
      simp [allRegs, regOffset, State.readReg, flagAt_eq_ite, Config.blockId, Config.crcXorOut]
    obtain ⟨r, hr, rfl⟩ := List.mem_map.1 hmap
    have hne : r ≠ .bufData := by simpa using (List.mem_filter.1 hr).2
    exact (State.rd_idle hb r).trans (by rw [State.readEffect_of_ne hne])
  · have hmap : off ∈ readOnlyRegs.map regOffset := hoff
    obtain ⟨r, hr, rfl⟩ := List.mem_map.1 hmap
    exact (State.wr_idle hb r v).trans (s.writeReg_readOnly hr v)
  · have hnone : regAt index = none := regAt_reserved index hi
    exact ⟨State.wr_reserved hb hnone v, State.rd_reserved hb hnone⟩

/-! ### Reset -/

/-- In a memory nothing has written every element is unwritten and reads as a free value (R68, U1). -/
theorem Memory.unknown_unwritten {w : Nat} (b : Buf) (d k : Nat) :
    (Memory.unknown w).written k = false ∧
      (Memory.unknown w).read b d k = Config.unwritten w d (bufNumber b) k := ⟨rfl, rfl⟩

/-- The reset state reads the reset column of R21. -/
theorem readReg_resetWith {p : Params} {r : Reg} {v : Word} (h : resetColumn p r = some v) :
    (State.resetWith p).readReg r = v := by
  cases r with
  | status => cases h; simp [State.readReg, State.statusWord, State.ksValid, State.keyValid, State.resetWith, flagAt_eq_ite]
  | ien => cases h; simp [State.readReg, State.resetWith, flagAt_eq_ite]
  | crcOut => cases h; exact BitVec.xor_self
  | _ => cases h <;> rfl

/-- Settles O26: register by register, and every memory is the one nothing has written. -/
theorem resetLeavesTheResetColumn : Obligations.ResetLeavesTheResetColumn := by
  intro p s
  refine ⟨fun r v h => readReg_resetWith h, rfl, rfl, fun d k => ?_⟩
  have unwritten {w : Nat} (b : Buf) := Memory.unknown_unwritten (w := w) b d k
  exact ⟨unwritten .ibuf, unwritten .obuf, unwritten .salt, unwritten .pass, unwritten .iv, unwritten .keyn, unwritten .keyx⟩

/-! ### The gated memories -/

/-- The port shows no free value where the elements it answers for show none. -/
theorem State.bufData_withDraw {s : State} {b : Buf} {d : Nat} (hsel : bufOf s.bufSel = some b)
    (h : ∀ a < s.readable b, State.element { s with draw := d } b a = s.element b a) :
    State.bufData { s with draw := d } = s.bufData := by
  rw [State.bufData_of hsel, State.bufData_of (s := { s with draw := d }) hsel]
  exact ite_congr rfl (h _) fun _ => rfl

/-- Settles O32: every element behind a gate is written, and a written element shows no free value. -/
theorem gatedMemoriesShowNoFreeValue : Obligations.GatedMemoriesShowNoFreeValue := by
  rintro s d h (hsel | hsel)
  · have hbuf : bufOf s.bufSel = some .obuf := hsel ▸ bufOf_bufNumber .obuf
    refine State.bufData_withDraw hbuf fun a ha => ?_
    exact congrArg (BitVec.setWidth 32) (Memory.read_of_written (h.outWritten a ha) .obuf d s.draw)
  · have hbuf : bufOf s.bufSel = some .iv := hsel ▸ bufOf_bufNumber .iv
    exact State.bufData_withDraw hbuf fun a ha => Memory.read_of_written (h.ivWritten a ha) .iv d s.draw

end Sys2Proof.Machine
end

section
/-! Every step completes (spec 20_memory.md R71, 60_exceptions.md R228, 70_reset_and_hazards.md R268; log entry 13): each command
commits whatever its evaluation gives, and no other turn can stop. -/

namespace Sys2Proof.Machine

theorem exec_completes (i : Instr) (s : State) : ∃ t, exec i s = .next t := by
  cases h : evalOf i s with
  | ok u => exact ⟨_, exec_of_ok h⟩
  | error e => exact ⟨_, exec_of_error h⟩

theorem commitStep_completes (s : State) : ∃ t, commitStep s = .next t := by
  cases h : decode s.cmd with
  | ok i => rw [commitStep_of_ok h]; exact exec_completes i s
  | error e => exact ⟨_, commitStep_of_error h⟩

theorem hostTurn_completes (u : Transaction) (s : State) : ∃ t, hostTurn u s = .next t := by
  unfold hostTurn
  split
  · exact ⟨_, rfl⟩
  · exact ⟨_, rfl⟩

theorem sequencerTurn_completes (s : State) : ∃ t, sequencerTurn s = .next t := by
  unfold sequencerTurn
  split
  · exact ⟨_, rfl⟩
  · split
    · exact commitStep_completes s
    · exact ⟨_, rfl⟩

theorem releaseTurn_completes (s : State) : ∃ t, releaseTurn s = .next t := by
  unfold releaseTurn
  split
  · exact ⟨_, rfl⟩
  · exact ⟨_, rfl⟩

/-- Settles O5, turn by turn. -/
theorem everyStepCompletes : Obligations.EveryStepCompletes := by
  intro s
  obtain ⟨-, -, -, hs⟩ | ⟨-, -, hs⟩ | ⟨u, _, -, hs⟩ | ⟨_, -, hs⟩ | ⟨_, -, hs⟩ | ⟨_, -, hs⟩ := step_cases s <;> rw [hs]
  · exact commitStep_completes s.advance
  · exact ⟨_, rfl⟩
  · exact hostTurn_completes u s.advance
  · exact sequencerTurn_completes s.advance
  · exact ⟨_, rfl⟩
  · exact releaseTurn_completes s.advance

end Sys2Proof.Machine
end

section
/-! The host port, transaction by transaction (spec 20_memory.md R72 to R76): the RW registers, the buffer port, and the port while
a command is in flight. -/

namespace Sys2Proof.Machine

/-! ### While a command is in flight -/

/-- `STATUS` answers as ever while a command is in flight (R76). -/
theorem State.readPort_status_busy {s : State} (hb : s.busy = true) : s.readPort (regIndex .status) = s.statusWord := by
  simp [State.readPort, hb]

/-- Settles O25: the invariant gives `DONE = ERR = 0`, and `STATUS` shows the flags. -/
theorem busyPortDiscardsWrites : Obligations.BusyPortDiscardsWrites := by
  intro s index v hinv hb
  refine ⟨State.wr_busy hb index v, ⟨_, State.rd_busy hb index⟩, _, State.rd_busy hb _, ?_⟩
  have bits (k : Nat) : s.statusWord.getLsbD k = _ := statusReadsItsBits s k
  rw [State.readPort_status_busy hb]
  simp only [bits]
  simp [hb, hinv.busyDone hb, hinv.busyErr hb]

/-! ### The buffer port -/

/-- The selector of a memory is its number (R30). -/
theorem eq_bufNumber_of_bufOf : ∀ {sel : BitVec 3} {b : Buf}, bufOf sel = some b → sel = bufNumber b := by
  decide

/-- Only 7 selects no memory (R30). -/
theorem eq_seven_of_bufOf_none : ∀ {sel : BitVec 3}, bufOf sel = none → sel = 7#3 := by
  decide

/-- What the buffer port shows, by the value of `BUF_SEL` (R73). -/
theorem State.bufData_eq (s : State) :
    s.bufData =
      (let a := s.bufAddr.toNat
       if s.bufSel = 0#3 ∧ a < s.par.dbuf then (s.ibuf.read .ibuf s.draw a).setWidth 32
       else if s.bufSel = 1#3 ∧ a < s.outLen.toNat then (s.obuf.read .obuf s.draw a).setWidth 32
       else if s.bufSel = 2#3 ∧ a < s.par.saltMax then (s.salt.read .salt s.draw a).setWidth 32
       else if s.bufSel = 3#3 ∧ a < s.par.passMax then (s.pass.read .pass s.draw a).setWidth 32
       else if s.bufSel = 4#3 ∧ a < s.vecSize.toNat then s.iv.read .iv s.draw a
       else if s.bufSel = 5#3 ∧ a < s.par.keyMax then s.keyn.read .keyn s.draw a
       else if s.bufSel = 6#3 ∧ a < s.par.keyMax then s.keyx.read .keyx s.draw a
       else 0#32) := by
  cases h : bufOf s.bufSel with
  | none => simp [State.bufData_of_none h, eq_seven_of_bufOf_none h]
  | some b =>
    rw [State.bufData_of h, eq_bufNumber_of_bufOf h]
    cases b <;> simp [bufNumber, State.readable, State.element, Params.capacity] <;> rfl

/-- Settles O23: an idle read of `BUF_DATA` answers what the port shows and moves `BUF_ADDR`. -/
theorem bufferPortReadFollowsTheTable : Obligations.BufferPortReadFollowsTheTable := by
  intro s hb
  rw [State.rd_idle hb, State.readEffect, State.readReg, State.bufData_eq]
  rfl

/-- The store of the port, memory by memory: the one that `BUF_SEL` selects takes the data, in range (R74). -/
theorem State.storeData_memories (s : State) (v : Word) :
    let a := s.bufAddr.toNat
    (s.storeData v).ibuf = (if s.bufSel = 0#3 ∧ a < s.par.dbuf then s.ibuf.write a (v.setWidth 8) else s.ibuf) ∧
    (s.storeData v).salt = (if s.bufSel = 2#3 ∧ a < s.par.saltMax then s.salt.write a (v.setWidth 8) else s.salt) ∧
    (s.storeData v).pass = (if s.bufSel = 3#3 ∧ a < s.par.passMax then s.pass.write a (v.setWidth 8) else s.pass) ∧
    (s.storeData v).keyn = (if s.bufSel = 5#3 ∧ a < s.par.keyMax then s.keyn.write a v else s.keyn) ∧
    (s.storeData v).keyx = (if s.bufSel = 6#3 ∧ a < s.par.keyMax then s.keyx.write a v else s.keyx) := by
  cases h : bufOf s.bufSel with
  | none => simp [State.storeData_of_none h, eq_seven_of_bufOf_none h]
  | some b =>
    have hsel : s.bufSel = bufNumber b := eq_bufNumber_of_bufOf h
    rw [State.storeData_of h]
    by_cases ha : s.bufAddr.toNat < s.par.capacity b
    · rw [if_pos ha]
      cases b <;> simp only [Params.capacity] at ha <;> simp [hsel, bufNumber, ha, State.storeElement]
    · rw [if_neg ha]
      cases b <;> simp only [Params.capacity] at ha <;> simp [hsel, bufNumber, ha]

/-- A read after a write that is made only where the memory is selected and the index is in range. -/
theorem Memory.read_ite_write {w : Nat} (m : Memory w) (b : Buf) (d k a : Nat) (v : BitVec w) (P Q : Prop)
    [Decidable P] [Decidable Q] :
    (if P ∧ Q then m.write a v else m).read b d k = if P ∧ Q ∧ k = a then v else m.read b d k := by
  by_cases h : P ∧ Q
  · simp [h, Memory.read_write, eq_comm]
  · rw [if_neg h, if_neg fun hk => h ⟨hk.1, hk.2.1⟩]

/-- Settles O24: the store memory by memory, seen through a read of every element. -/
theorem bufferPortWriteStoresOneElement : Obligations.BufferPortWriteStoresOneElement := by
  intro s v hb
  obtain ⟨hibuf, hsalt, hpass, hkeyn, hkeyx⟩ := s.storeData_memories v
  refine ⟨(s.storeData v).bumpAddr, State.wr_idle hb .bufData v, congrArg State.bumpAddr (s.storeData_frame v), fun d k => ?_⟩
  simp only [State.bumpAddr_ibuf, State.bumpAddr_salt, State.bumpAddr_pass, State.bumpAddr_keyn, State.bumpAddr_keyx,
    hibuf, hsalt, hpass, hkeyn, hkeyx, Memory.read_ite_write, and_self]

/-! ### The RW registers -/

theorem flagAt_getLsbD_eq_and (v : Word) (k : Nat) : flagAt (v.getLsbD k) k = v &&& BitVec.twoPow 32 k := by
  rw [flagAt_eq_ite, BitVec.and_twoPow]
  rfl

theorem setWidth_setWidth_eq_and (v : Word) {n : Nat} (hn : n ≤ 32) :
    (v.setWidth n).setWidth 32 = v &&& BitVec.ofNat 32 (2 ^ n - 1) := by
  have hle : 2 ^ n ≤ 2 ^ 32 := Nat.pow_le_pow_right Nat.two_pos hn
  have hpos : 0 < 2 ^ n := Nat.two_pow_pos n
  apply BitVec.eq_of_toNat_eq
  rw [BitVec.toNat_and, BitVec.toNat_ofNat, Nat.mod_eq_of_lt (show 2 ^ n - 1 < 2 ^ 32 by omega),
    Nat.and_two_pow_sub_one_eq_mod, BitVec.toNat_setWidth, BitVec.toNat_setWidth]
  exact Nat.mod_eq_of_lt (lt_of_lt_of_le (Nat.mod_lt _ hpos) hle)

/-- An RW register reads back the implemented bits of what was written to it (R72). -/
theorem State.readReg_writeReg_self {r : Reg} {m : Word} (h : rwMask r = some m) (s : State) (v : Word) :
    (s.writeReg r v).readReg r = v &&& m := by
  cases r with
  | ctrl => cases h; exact flagAt_getLsbD_eq_and v 0
  | ien =>
    cases h
    calc flagAt (v.getLsbD 1) 1 ||| flagAt (v.getLsbD 2) 2
        = v &&& (BitVec.twoPow 32 1 ||| BitVec.twoPow 32 2) := by
          rw [flagAt_getLsbD_eq_and, flagAt_getLsbD_eq_and, BitVec.and_or_distrib_left]
      _ = v &&& 0x00000006#32 := rfl
  | bufSel => cases h; exact setWidth_setWidth_eq_and v (n := 3) (by decide)
  | hType => cases h; exact setWidth_setWidth_eq_and v (n := 8) (by decide)
  | _ => cases h <;> exact BitVec.and_allOnes.symm

theorem State.writeReg_busy {r : Reg} {m : Word} (h : rwMask r = some m) (s : State) (v : Word) :
    (s.writeReg r v).busy = s.busy := by
  cases r <;> cases h <;> rfl

/-- Of the RW registers `STATUS` shows `KEY_LEN` only (R25). -/
theorem State.statusWord_writeReg {r : Reg} {m : Word} (h : rwMask r = some m) (hr : r ≠ .keyLen) (s : State) (v : Word) :
    (s.writeReg r v).statusWord = s.statusWord := by
  cases r with
  | keyLen => exact absurd rfl hr
  | _ => cases h <;> rfl

/-- Of the RW registers `BUF_DATA` shows `BUF_SEL` and `BUF_ADDR` only (R73). -/
theorem State.bufData_writeReg {r : Reg} {m : Word} (h : rwMask r = some m) (hr : r ≠ .bufSel ∧ r ≠ .bufAddr)
    (s : State) (v : Word) : (s.writeReg r v).bufData = s.bufData := by
  cases r with
  | bufSel => exact absurd rfl hr.1
  | bufAddr => exact absurd rfl hr.2
  | _ => cases h <;> rfl

/-- A write to an RW register is seen at no other register but the two views. -/
theorem State.readReg_writeReg_of_ne {r r' : Reg} {m : Word} (h : rwMask r = some m) (hne : r' ≠ r)
    (hstatus : r' = .status → r ≠ .keyLen) (hdata : r' = .bufData → r ≠ .bufSel ∧ r ≠ .bufAddr) (s : State) (v : Word) :
    (s.writeReg r v).readReg r' = s.readReg r' := by
  cases r' with
  | status => exact s.statusWord_writeReg h (hstatus rfl) v
  | bufData => exact s.bufData_writeReg h (hdata rfl) v
  | _ => cases r <;> cases h <;> first | rfl | exact absurd rfl hne

/-- Settles O21: the list is the RW registers of the register map, and each is stored apart from what the others show. -/
theorem rwRegisterReadsBackItsBits : Obligations.RwRegisterReadsBackItsBits := by
  refine fun s v hb => ⟨fun p hp => ?_, fun r r' m h => ?_⟩
  · have hmap : p ∈ (allRegs.filter fun r => (rwMask r).isSome).map fun r => (regOffset r, s.writeReg r v) := by
      convert hp using 1
      simp [allRegs, rwMask, regOffset, State.writeReg, BitVec.setWidth_eq_extractLsb']
    obtain ⟨r, -, rfl⟩ := List.mem_map.1 hmap
    exact State.wr_idle hb r v
  · have hb' : (s.writeReg r v).busy = false := (s.writeReg_busy h v).trans hb
    have hr : r ≠ .bufData := by rintro rfl; cases h
    rw [State.wr_idle hb]
    constructor
    · rw [State.rd_idle hb', State.readEffect_of_ne hr, s.readReg_writeReg_self h]
    · intro hne hstatus hdata
      simpa [State.readPort, hb, hb'] using s.readReg_writeReg_of_ne h hne hstatus hdata v

end Sys2Proof.Machine
end

section
/-! Command words (spec 30_encoding.md R90 to R94): the decoder accepts the words the encoder writes and no others. -/

namespace Sys2Proof

/-! ### The opcode map -/

theorem mem_of_lookupOpcode {opc : Byte} {rows : List (Byte × Instr)} {i : Instr} (h : lookupOpcode opc rows = some i) :
    (opc, i) ∈ rows := by
  induction rows with
  | nil => cases h
  | cons row rows ih =>
    unfold lookupOpcode at h
    split at h
    · next hopc => cases h; exact hopc ▸ List.mem_cons_self
    · exact List.mem_cons_of_mem row (ih h)

theorem exists_lookupOpcode_iff {opc : Byte} {rows : List (Byte × Instr)} :
    (∃ i, lookupOpcode opc rows = some i) ↔ opc ∈ rows.map Prod.fst := by
  induction rows with
  | nil => simp [lookupOpcode]
  | cons row rows ih =>
    unfold lookupOpcode
    split
    · next hopc => simp [hopc]
    · next hopc => simp [ih, Ne.symm hopc]

/-- The second column of R93 is the first under a zero field of zeros. -/
theorem encode_of_mem_opcodeMap : ∀ row ∈ opcodeMap, encode row.2 = 0#24 ++ row.1 := by decide

/-! ### The decoder -/

/-- A word is its two fields (R91). -/
theorem zeroField_append_opcField (w : Word) : zeroField w ++ opcField w = w :=
  (BitVec.extractLsb'_append_extractLsb'_eq_extractLsb' rfl).trans BitVec.extractLsb'_eq_self

theorem decode_eq_ok_iff {w : Word} {i : Instr} :
    decode w = .ok i ↔ zeroField w = 0#24 ∧ lookupOpcode (opcField w) opcodeMap = some i := by
  unfold decode
  split
  · next hz => cases h : lookupOpcode (opcField w) opcodeMap <;> simp [hz]
  · next hz => simp [hz]

/-- The laws of the single commands, together (R91, R93). -/
theorem decodeEncode_statement : ∀ i, Laws.DecodeEncode.Statement i
  | .nop => Laws.DecodeEncode.nop
  | .cleanup => Laws.DecodeEncode.cleanup
  | .crcRun => Laws.DecodeEncode.crcRun
  | .crcCont => Laws.DecodeEncode.crcCont
  | .modpow => Laws.DecodeEncode.modpow
  | .isprime => Laws.DecodeEncode.isprime
  | .ksDerive => Laws.DecodeEncode.ksDerive
  | .xform => Laws.DecodeEncode.xform
  | .hdrPack => Laws.DecodeEncode.hdrPack
  | .hdrUnpack => Laws.DecodeEncode.hdrUnpack
  | .encChunk => Laws.DecodeEncode.encChunk
  | .decChunk => Laws.DecodeEncode.decChunk

theorem decode_encode (i : Instr) : decode (encode i) = .ok i := (decodeEncode_statement i).1

theorem eq_encode_of_decode {w : Word} {i : Instr} (h : decode w = .ok i) : w = encode i := by
  obtain ⟨hzero, hopc⟩ := decode_eq_ok_iff.1 h
  calc w = zeroField w ++ opcField w := (zeroField_append_opcField w).symm
    _ = 0#24 ++ opcField w := by rw [hzero]
    _ = encode i := (encode_of_mem_opcodeMap _ (mem_of_lookupOpcode hopc)).symm

theorem decode_eq_ok_iff_eq_encode {w : Word} {i : Instr} : decode w = .ok i ↔ w = encode i :=
  ⟨eq_encode_of_decode, fun h => h ▸ decode_encode i⟩

/-- A word that no command has is illegal (R94). -/
theorem decode_error_of_ne_encode {w : Word} (h : ∀ i, w ≠ encode i) : ∃ e, decode w = .error e := by
  cases hd : decode w with
  | ok i => exact absurd (eq_encode_of_decode hd) (h i)
  | error e => exact ⟨e, rfl⟩

/-- Settles O1: the decoder asks for the two fields, the opcodes listed are the first column of the opcode map, and
the fields determine the word. -/
theorem legalWordsAreTheTwelveCommands : Obligations.LegalWordsAreTheTwelveCommands := by
  intro w
  refine ⟨?_, fun i => decode_eq_ok_iff_eq_encode⟩
  calc (∃ i, decode w = .ok i)
      ↔ zeroField w = 0#24 ∧ ∃ i, lookupOpcode (opcField w) opcodeMap = some i := by
        simp only [decode_eq_ok_iff, exists_and_left]
    _ ↔ zeroField w = 0#24 ∧ opcField w ∈ opcodeMap.map Prod.fst := and_congr_right' exists_lookupOpcode_iff

/-- Settles O2: the words written out are those of the encoder, and of the other two one fails at each field. -/
theorem sampleWordsDecode : Obligations.SampleWordsDecode :=
  ⟨decode_encode .nop, decode_encode .cleanup, decode_encode .crcRun, decode_encode .crcCont, decode_encode .modpow,
    decode_encode .isprime, decode_encode .ksDerive, decode_encode .xform, decode_encode .hdrPack,
    decode_encode .hdrUnpack, decode_encode .encChunk, decode_encode .decChunk, by decide, by decide⟩

end Sys2Proof
end

section
/-! What a commit reports and what it leaves (spec 30_encoding.md R96 to R98, 60_exceptions.md R222): the frame common to
all commands, and the accept before it. -/

namespace Sys2Proof.Machine

/-! ### The frame of a commit -/

/-- `s` with the fields that R98 lets some command write, taken from `u`. -/
def State.withResults (s u : State) : State :=
  { s with
    busy := u.busy, done := u.done, err := u.err, errcode := u.errcode
    outLen := u.outLen, vecSize := u.vecSize, ivalLo := u.ivalLo, ivalHi := u.ivalHi, keyLen := u.keyLen, crcRaw := u.crcRaw
    hType := u.hType, hOsize := u.hOsize, hEsize := u.hEsize, hCrc := u.hCrc, hShift := u.hShift
    mpRes := u.mpRes, prRes := u.prRes
    obuf := u.obuf, iv := u.iv, keyn := u.keyn, keyx := u.keyx }

/-- The key material: `KEY_LEN`, KEYN and KEYX. -/
def State.keys (s : State) : Word × Memory 32 × Memory 32 := (s.keyLen, s.keyn, s.keyx)

theorem State.keys_eq_iff {s t : State} : t.keys = s.keys ↔ t.keyLen = s.keyLen ∧ t.keyn = s.keyn ∧ t.keyx = s.keyx := by
  simp [State.keys]

/-- No command's own writes reach beyond the results, and only those of CLEANUP reach the key material. -/
theorem evalOf_ok_frame {i : Instr} {s u : State} (h : evalOf i s = .ok u) :
    u = s.withResults u ∧ (i ≠ .cleanup → u.keys = s.keys) := by
  cases i with
  | nop => cases h; exact ⟨rfl, fun _ => rfl⟩
  | cleanup => cases h; exact ⟨rfl, fun hi => absurd rfl hi⟩
  | crcRun => obtain ⟨-, rfl⟩ := evalCrc_ok_iff.1 h; exact ⟨rfl, fun _ => rfl⟩
  | crcCont => obtain ⟨-, rfl⟩ := evalCrc_ok_iff.1 h; exact ⟨rfl, fun _ => rfl⟩
  | modpow => obtain ⟨-, rfl⟩ := evalModpow_ok_iff.1 h; exact ⟨rfl, fun _ => rfl⟩
  | isprime => obtain ⟨-, -, rfl⟩ := evalIsprime_ok_iff.1 h; exact ⟨rfl, fun _ => rfl⟩
  | ksDerive => obtain ⟨-, -, rfl⟩ := evalKsDerive_ok_iff.1 h; exact ⟨rfl, fun _ => rfl⟩
  | xform => obtain ⟨-, -, rfl⟩ := evalXform_ok_iff.1 h; exact ⟨rfl, fun _ => rfl⟩
  | hdrPack => obtain ⟨-, rfl⟩ := evalHdrPack_ok_iff.1 h; exact ⟨rfl, fun _ => rfl⟩
  | hdrUnpack => obtain ⟨-, -, rfl⟩ := evalHdrUnpack_ok_iff.1 h; exact ⟨rfl, fun _ => rfl⟩
  | encChunk => obtain ⟨-, -, -, -, rfl⟩ := evalEncChunk_ok_iff.1 h; exact ⟨rfl, fun _ => rfl⟩
  | decChunk => obtain ⟨-, -, -, -, -, rfl⟩ := evalDecChunk_ok_iff.1 h; exact ⟨rfl, fun _ => rfl⟩

theorem exec_frame {i : Instr} {s t : State} (h : exec i s = .next t) :
    t = s.withResults t ∧ (i ≠ .cleanup → t.keys = s.keys) := by
  obtain ⟨u, hu, rfl⟩ | ⟨e, -, rfl⟩ := exec_cases h
  · obtain ⟨hframe, hkeys⟩ := evalOf_ok_frame hu
    exact ⟨(congrArg State.succeed hframe :), hkeys⟩
  · cases dropsOutput i <;> exact ⟨rfl, fun _ => rfl⟩

theorem commitStep_frame {s t : State} (h : commitStep s = .next t) : t = s.withResults t := by
  obtain ⟨i, -, hex⟩ | ⟨e, -, rfl⟩ := commitStep_cases h
  · exact (exec_frame hex).1
  · rfl

/-- Settles O10: the fields listed are no results, the key material and the schedule have lemmas of their own. -/
theorem commandsKeepTheHostsInputs : Obligations.CommandsKeepTheHostsInputs := by
  intro i s t h
  obtain ⟨hframe, hkeys⟩ := exec_frame h
  have hsched (hc : i ≠ .cleanup) (hk : i ≠ .ksDerive) : t.schedule = s.schedule := exec_schedule (by simp [hc, hk]) h
  simp only [State.keys_eq_iff] at hkeys
  simp only [State.schedule_eq_iff] at hsched
  rw [hframe]
  exact ⟨rfl, rfl, rfl, rfl, rfl, rfl, rfl, rfl, rfl, rfl, rfl, rfl, rfl, rfl, rfl, rfl, rfl, rfl, rfl, rfl, rfl, rfl, rfl,
    rfl, rfl, rfl, rfl, hkeys, hsched⟩

/-! ### The outcome of a commit -/

/-- A command leaves the flags of a success, or those of a failure with one of its codes (R97, R222). -/
theorem exec_flags {i : Instr} {s t : State} (h : exec i s = .next t) :
    t.busy = false ∧ t.done = true ∧
      ((t.err = false ∧ t.errcode = 0#3) ∨ ∃ e, errNumber e ∈ failureCodes i ∧ t.err = true ∧ t.errcode = errNumber e) := by
  obtain ⟨u, -, rfl⟩ | ⟨e, he, rfl⟩ := exec_cases h
  · exact ⟨rfl, rfl, .inl ⟨rfl, rfl⟩⟩
  · have hmem : errNumber e ∈ failureCodes i := evalOf_error he
    cases dropsOutput i <;> exact ⟨rfl, rfl, .inr ⟨e, hmem, rfl, rfl⟩⟩

/-- Settles O8: each command commits, a success with code 0 and a failure with a code of its column, none of which is 0. -/
theorem everyCommitReportsItsOutcome : Obligations.EveryCommitReportsItsOutcome := by
  intro i s
  obtain ⟨t, h⟩ := exec_completes i s
  obtain ⟨hframe, -⟩ := exec_frame h
  obtain ⟨hbusy, hdone, hcode⟩ := exec_flags h
  refine ⟨t, h, hbusy, hdone, (congrArg State.cmd hframe :), (congrArg State.wrbusy hframe :), ?_⟩
  obtain ⟨herr, hzero⟩ | ⟨e, hmem, herr, hnum⟩ := hcode
  · simp [herr, hzero]
  · simp [herr, hnum, hmem, errNumber_ne_zero]

/-- A commit ends with `BUSY = 0` and `DONE = 1`, whatever the word in flight (R97, R94). -/
theorem commitStep_flags {s t : State} (h : commitStep s = .next t) : t.busy = false ∧ t.done = true := by
  obtain ⟨i, -, hex⟩ | ⟨e, -, rfl⟩ := commitStep_cases h
  · exact (exec_flags hex).imp_right And.left
  · exact ⟨rfl, rfl⟩

/-! ### Accept -/

/-- A write to `CMD` of an idle machine is the accept of the word (R96). -/
theorem State.wr_cmd_idle {s : State} (hb : s.busy = false) (w : Word) : s.wr (regIndex .cmd) w = s.accept w :=
  State.wr_idle hb .cmd w

/-- Settles O6: the write is the accept, which clears both causes of the interrupt. -/
theorem acceptWritesExactly : Obligations.AcceptWritesExactly := by
  intro s w hb
  rw [State.wr_cmd_idle hb]
  exact ⟨rfl, by simp [State.irq]⟩

/-- Settles O7: no command is the word's meaning, so that its commit is the failure with `E_ILLCMD`. -/
theorem illegalWordCommitsAsFailure : Obligations.IllegalWordCommitsAsFailure := by
  intro s w hb hw
  obtain ⟨e, he⟩ := decode_error_of_ne_encode hw
  rw [State.wr_cmd_idle hb]
  exact ⟨rfl, _, commitStep_of_error (s := s.accept w) he, rfl, rfl⟩

end Sys2Proof.Machine
end

section
/-! What a step is at a host turn and at a commit, as equations (spec 20_memory.md R78, R79, 30_encoding.md R97,
70_reset_and_hazards.md R268), and the run of a WAIT (R100). -/

namespace Sys2Proof.Machine

/-! ### Steps -/

/-- The next turn taken, the rest of the run named. -/
theorem State.advance_of_cons {s : State} {u : Turn} {rest : List Turn} (ht : s.turns = u :: rest) :
    s.advance = { s with turns := rest, draw := s.draw + 1, rdata := none } := by
  simp only [State.advance, ht, List.tail_cons]

theorem step_of_host {s : State} {u : Transaction} {rest : List Turn} (hr : s.rst = false)
    (ht : s.turns = .host u :: rest) : step s = .next (s.advance.transact u) := by
  simp [step, runTurn, ht, hostTurn, hr]

theorem step_of_commitDue {s : State} (h : CommitDue s) : step s = commitStep s.advance := by
  obtain ⟨hr, hb, ht | ⟨rest, ht⟩⟩ := h
  · simp [step, runTurn, ht, hr, hb]
  · simp [step, runTurn, ht, sequencerTurn, hr, hb]

/-- Settles O3: a commit that is due runs what the word decodes to, and a host turn its transaction. -/
theorem stepRunsDecodedCommand : Obligations.StepRunsDecodedCommand := by
  refine ⟨fun s i hr hb ht hd _ => ?_, fun s e hr hb ht hd => ?_, fun s index v rest hr => ⟨fun ht => ?_, fun ht => ?_⟩⟩
  · exact (step_of_commitDue ⟨hr, hb, ht⟩).trans (commitStep_of_ok (s := s.advance) hd)
  · exact (step_of_commitDue ⟨hr, hb, ht⟩).trans (commitStep_of_error (s := s.advance) hd)
  · exact (step_of_host hr ht).trans (by rw [State.advance_of_cons ht, State.transact])
  · exact (step_of_host hr ht).trans (by rw [State.advance_of_cons ht, State.transact])

/-! ### The run of a WAIT -/

theorem run_succ_of_step {s t : State} (h : step s = .next t) (k : Nat) :
    Host.Core.run core (k + 1) s = Host.Core.run core k t := by
  simp only [Host.Core.run, show core.step s = .next t from h]

/-- An early read of `STATUS` takes its turn and leaves the command in flight (R76). -/
theorem step_early_read {s : State} {index : BitVec 6} {rest : List Turn} (hr : s.rst = false) (hb : s.busy = true)
    (ht : s.turns = .host (.rd index) :: rest) :
    ∃ t, step s = .next t ∧ t.rst = false ∧ t.busy = true ∧ t.turns = rest := by
  refine ⟨_, step_of_host hr ht, ?_⟩
  rw [State.transact, State.rd_busy (s := s.advance) hb]
  exact ⟨hr, hb, by simp [ht]⟩

/-- The sequencer's turn of a WAIT commits, and leaves the rest of the run (R79). -/
theorem step_sequencer_busy {s : State} {rest : List Turn} (hr : s.rst = false) (hb : s.busy = true)
    (ht : s.turns = .sequencer :: rest) :
    ∃ t, step s = .next t ∧ t.rst = false ∧ t.busy = false ∧ t.done = true ∧ t.turns = rest := by
  obtain ⟨t, hc⟩ := commitStep_completes s.advance
  have hframe : t = s.advance.withResults t := commitStep_frame hc
  obtain ⟨hbusy, hdone⟩ := commitStep_flags hc
  have hrst : t.rst = s.rst := (congrArg State.rst hframe :)
  have hturns : t.turns = s.turns.tail := (congrArg State.turns hframe :)
  refine ⟨t, (step_of_commitDue ⟨hr, hb, .inr ⟨rest, ht⟩⟩).trans hc, hrst.trans hr, hbusy, hdone, ?_⟩
  rw [hturns, ht, List.tail_cons]

/-- The read of `STATUS` after the commit finds `BUSY = 0` and `DONE = 1` (R25, R100). -/
theorem step_last_read {s : State} {rest : List Turn} (hr : s.rst = false) (hb : s.busy = false) (hd : s.done = true)
    (ht : s.turns = rdTurn .status :: rest) :
    ∃ t w, step s = .next t ∧ t.turns = rest ∧ t.busy = false ∧
      t.rdata = some w ∧ w.getLsbD 0 = false ∧ w.getLsbD 1 = true := by
  refine ⟨_, s.advance.statusWord, step_of_host hr ht, ?_⟩
  rw [State.transact, State.rd_idle (s := s.advance) hb]
  refine ⟨by simp [State.readEffect, ht], hb, rfl, ?_, ?_⟩
  · exact (s.advance.statusWord_getLsbD 0).trans (by simp [hb])
  · exact (s.advance.statusWord_getLsbD 1).trans (by simp [hd])

/-- Settles O18, by induction on the early reads. -/
theorem waitEndsWithTheCommandCommitted : Obligations.WaitEndsWithTheCommandCommitted := by
  intro s early
  induction early generalizing s with
  | zero =>
    intro hr hb ht
    obtain ⟨u, hu, hur, hub, hud, hut⟩ := step_sequencer_busy hr hb ht
    obtain ⟨t, w, hw, hend⟩ := step_last_read hur hub hud hut
    exact ⟨t, w, by rw [run_succ_of_step hu, run_succ_of_step hw]; rfl, hend⟩
  | succ early ih =>
    intro hr hb ht
    obtain ⟨u, hu, hur, hub, hut⟩ := step_early_read hr hb ht
    obtain ⟨t, w, hrun, hend⟩ := ih u hur hub hut
    exact ⟨t, w, (run_succ_of_step hu (early + 2)).trans hrun, hend⟩

end Sys2Proof.Machine
end

section
/-! The CRC unit (spec 40_crc.md): the one-bit step is linear and injective, so that the table-driven update is the bit-serial
one and tells two bytes apart; what the two commands commit. -/

namespace Sys2Proof.Machine

/-! ### The one-bit step -/

theorem crcShift_of_lsb_false {c : Word} (h : c.getLsbD 0 = false) : crcShift c = c >>> 1 :=
  if_neg (by rw [h]; decide)

theorem crcShift_of_lsb_true {c : Word} (h : c.getLsbD 0 = true) : crcShift c = c >>> 1 ^^^ Config.crcPoly :=
  if_pos h

/-- The polynomial is XORed in for one of two words, for both (and cancels) or for neither. -/
theorem crcShift_xor (a b : Word) : crcShift (a ^^^ b) = crcShift a ^^^ crcShift b := by
  have hlsb : (a ^^^ b).getLsbD 0 = (a.getLsbD 0 ^^ b.getLsbD 0) := BitVec.getLsbD_xor
  have hshift : (a ^^^ b) >>> 1 = a >>> 1 ^^^ b >>> 1 := BitVec.ushiftRight_xor_distrib a b 1
  cases ha : a.getLsbD 0 <;> cases hb : b.getLsbD 0 <;> rw [ha, hb] at hlsb
  · rw [crcShift_of_lsb_false hlsb, crcShift_of_lsb_false ha, crcShift_of_lsb_false hb, hshift]
  · rw [crcShift_of_lsb_true hlsb, crcShift_of_lsb_false ha, crcShift_of_lsb_true hb, hshift, BitVec.xor_assoc]
  · rw [crcShift_of_lsb_true hlsb, crcShift_of_lsb_true ha, crcShift_of_lsb_false hb, hshift]
    ac_rfl
  · have hcancel : a >>> 1 ^^^ Config.crcPoly ^^^ (b >>> 1 ^^^ Config.crcPoly) =
        a >>> 1 ^^^ b >>> 1 ^^^ (Config.crcPoly ^^^ Config.crcPoly) := by ac_rfl
    rw [crcShift_of_lsb_false hlsb, crcShift_of_lsb_true ha, crcShift_of_lsb_true hb, hshift, hcancel, BitVec.xor_self,
      BitVec.xor_zero]

/-- The polynomial's top bit is 1, so that the top bit after a step is the bit shifted out. -/
theorem crcShift_getLsbD_top (c : Word) : (crcShift c).getLsbD 31 = c.getLsbD 0 := by
  have hpoly : Config.crcPoly.getLsbD 31 = true := by decide
  cases hc : c.getLsbD 0 with
  | false => rw [crcShift_of_lsb_false hc]; simp
  | true => rw [crcShift_of_lsb_true hc, BitVec.getLsbD_xor, hpoly]; simp

theorem crcShift_injective : Function.Injective crcShift := by
  intro a b h
  have hlow : a.getLsbD 0 = b.getLsbD 0 := by
    rw [← crcShift_getLsbD_top, ← crcShift_getLsbD_top, h]
  have hhigh : a >>> 1 = b >>> 1 := by
    cases hb : b.getLsbD 0 with
    | false => rwa [crcShift_of_lsb_false (hlow.trans hb), crcShift_of_lsb_false hb] at h
    | true =>
      rw [crcShift_of_lsb_true (hlow.trans hb), crcShift_of_lsb_true hb] at h
      exact (BitVec.xor_left_inj _).1 h
  refine BitVec.eq_of_getLsbD_eq fun i _ => ?_
  cases i with
  | zero => exact hlow
  | succ i =>
    have hbit : (a >>> 1).getLsbD i = (b >>> 1).getLsbD i := by rw [hhigh]
    simpa only [BitVec.getLsbD_ushiftRight, Nat.add_comm 1 i] using hbit

/-! ### Several steps -/

theorem crcShifts_eq_iterate (k : Nat) (c : Word) : crcShifts k c = crcShift^[k] c := by
  induction k generalizing c with
  | zero => rfl
  | succ k ih => exact ih (crcShift c)

theorem crcShifts_injective (k : Nat) : Function.Injective (crcShifts k) := by
  rw [funext (crcShifts_eq_iterate k)]
  exact crcShift_injective.iterate k

theorem crcShifts_xor (k : Nat) (a b : Word) : crcShifts k (a ^^^ b) = crcShifts k a ^^^ crcShifts k b := by
  induction k generalizing a b with
  | zero => rfl
  | succ k ih => simp only [crcShifts, crcShift_xor, ih]

/-- As long as the bits shifted out are 0, the steps are a plain shift. -/
theorem crcShifts_of_low_zero {k : Nat} {c : Word} (h : ∀ i < k, c.getLsbD i = false) : crcShifts k c = c >>> k := by
  induction k generalizing c with
  | zero => exact (BitVec.ushiftRight_zero c).symm
  | succ k ih =>
    have hfirst : crcShift c = c >>> 1 := crcShift_of_lsb_false (h 0 k.succ_pos)
    have hrest : ∀ i < k, (c >>> 1).getLsbD i = false := fun i hi => by
      rw [BitVec.getLsbD_ushiftRight]
      exact h (1 + i) (by omega)
    calc crcShifts (k + 1) c = crcShifts k (c >>> 1) := by rw [crcShifts, hfirst]
      _ = c >>> 1 >>> k := ih hrest
      _ = c >>> (k + 1) := by rw [← BitVec.shiftRight_add, Nat.add_comm]

/-- A word is its low byte and the rest; the low byte goes through the table, the rest is only shifted (R110, R111). -/
theorem crcShifts_eight (c : Word) : crcShifts 8 c = crcTable (c.setWidth 8) ^^^ c >>> 8 := by
  have hsplit : (c.setWidth 8).setWidth 32 ^^^ c >>> 8 <<< 8 = c := by
    refine BitVec.eq_of_getLsbD_eq fun i hi => ?_
    by_cases hlow : i < 8
    · simp [hlow, hi]
    · simp [hlow, hi, show 8 + (i - 8) = i by omega]
  have hrest : crcShifts 8 (c >>> 8 <<< 8) = c >>> 8 := by
    rw [crcShifts_of_low_zero fun i hi => by simp [hi]]
    bv_omega
  calc crcShifts 8 c = crcShifts 8 ((c.setWidth 8).setWidth 32 ^^^ c >>> 8 <<< 8) := by rw [hsplit]
    _ = crcTable (c.setWidth 8) ^^^ c >>> 8 := by rw [crcShifts_xor, hrest, crcTable]

/-! ### The update -/

theorem setWidth_byte_ushiftRight_eight (b : Byte) : b.setWidth 32 >>> 8 = 0#32 := by bv_omega

theorem crcByte_eq_crcShifts (r : Word) (b : Byte) : crcByte r b = crcShifts 8 (r ^^^ b.setWidth 32) := by
  rw [crcShifts_eight, BitVec.ushiftRight_xor_distrib, setWidth_byte_ushiftRight_eight, BitVec.xor_zero, crcByte]

theorem crcUpdate_eq_foldl (r : Word) (bytes : List Byte) : crcUpdate r bytes = bytes.foldl crcByte r := by
  induction bytes generalizing r with
  | nil => rfl
  | cons b bs ih => exact ih (crcByte r b)

theorem crcUpdate_append (r : Word) (a b : List Byte) : crcUpdate r (a ++ b) = crcUpdate (crcUpdate r a) b := by
  simp only [crcUpdate_eq_foldl, List.foldl_append]

/-- Settles O36: byte by byte, the table's step is the eight one-bit steps. -/
theorem tableCrcIsBitSerialCrc : Obligations.TableCrcIsBitSerialCrc := by
  intro r bytes
  have hbyte : crcByte = fun c b => crcShift^[8] (c ^^^ b.setWidth 32) := by
    funext c b
    rw [crcByte_eq_crcShifts, crcShifts_eq_iterate]
  exact (crcUpdate_eq_foldl r bytes).trans (by rw [hbyte]; rfl)

/-- One byte loses nothing of the raw value. -/
theorem crcByte_left_injective (b : Byte) : Function.Injective (crcByte · b) := by
  intro q r h
  simp only [crcByte_eq_crcShifts] at h
  exact (BitVec.xor_left_inj _).1 (crcShifts_injective 8 h)

theorem crcByte_right_injective (r : Word) : Function.Injective (crcByte r) := by
  intro x y h
  simp only [crcByte_eq_crcShifts] at h
  have hwide : x.setWidth 32 = y.setWidth 32 := (BitVec.xor_right_inj _).1 (crcShifts_injective 8 h)
  bv_omega

theorem crcUpdate_left_injective (bytes : List Byte) : Function.Injective (crcUpdate · bytes) := by
  induction bytes with
  | nil => exact Function.injective_id
  | cons b bs ih => exact ih.comp (crcByte_left_injective b)

/-- Settles O38: the changed byte changes the raw value, and no byte after it can undo that. -/
theorem crcSeesOneChangedByte : Obligations.CrcSeesOneChangedByte := by
  intro r before after x y hne h
  rw [crcUpdate_append, crcUpdate_append] at h
  have hbyte : crcByte (crcUpdate r before) x = crcByte (crcUpdate r before) y := crcUpdate_left_injective after h
  exact hne (crcByte_right_injective _ hbyte)

/-! ### The two commands -/

/-- A command that evaluates a CRC sets `CRC_RAW` where its input fits IBUF (R113, R114). -/
theorem exec_evalCrc_fits {i : Instr} {start : Word} {s : State} (hi : evalOf i s = evalCrc start s)
    (hfit : s.inLen.toNat ≤ s.par.dbuf) :
    exec i s = .next ({ s with crcRaw := crcUpdate start (s.ibufBytes 0 s.inLen.toNat) } : State).succeed :=
  exec_of_ok (hi.trans (evalCrc_ok_iff.2 ⟨hfit, rfl⟩))

/-- Settles O35: an input that fits succeeds, and another is the failure with `E_RESOURCE`, which keeps the output. -/
theorem crcCommandsResult : Obligations.CrcCommandsResult := by
  refine fun s => ⟨fun hfit => ⟨?_, ?_⟩, fun hlong => ?_⟩
  · exact exec_evalCrc_fits (i := .crcRun) rfl hfit
  · exact exec_evalCrc_fits (i := .crcCont) rfl hfit
  · have hfail (start : Word) : evalCrc start s = .error .resource := evalCrc_error_iff.2 ⟨hlong, rfl⟩
    exact ⟨exec_of_error (i := .crcRun) (hfail s.crcInit), exec_of_error (i := .crcCont) (hfail s.crcRaw)⟩

/-- `ERR = 0` after a command that evaluates a CRC: `CRC_RAW` is the CRC of its input. -/
theorem crcRaw_of_exec_evalCrc {i : Instr} {start : Word} {s t : State} (hi : evalOf i s = evalCrc start s)
    (h : exec i s = .next t) (herr : t.err = false) : t.crcRaw = crcUpdate start (s.ibufBytes 0 s.inLen.toNat) := by
  obtain ⟨u, hu, rfl⟩ | ⟨e, -, rfl⟩ := exec_cases h
  · obtain ⟨-, rfl⟩ := evalCrc_ok_iff.1 (hi ▸ hu)
    rfl
  · cases hd : dropsOutput i <;> simp [hd] at herr

/-- Settles O37: CRC_CONT starts from the CRC of the first piece, which the update carries on. -/
theorem crcRunThenContIsOneCrc : Obligations.CrcRunThenContIsOneCrc := by
  intro s t u v hrun hterr hkeep hcont hverr
  have ht : t.crcRaw = crcUpdate s.crcInit (s.ibufBytes 0 s.inLen.toNat) := crcRaw_of_exec_evalCrc rfl hrun hterr
  have hv : v.crcRaw = crcUpdate u.crcRaw (u.ibufBytes 0 u.inLen.toNat) := crcRaw_of_exec_evalCrc rfl hcont hverr
  rw [hv, hkeep, ht, ← crcUpdate_append]
  rfl

end Sys2Proof.Machine
end


section
/-! The number-theory unit (spec 41_modexp.md): the accumulator of MODPOW stays within the modulus and keeps the residue of the
power; the trials of ISPRIME find an odd divisor up to the square root where there is one, which is to say the operand is no
prime. -/

namespace Sys2Proof.Machine

/-! ### The modular power -/

/-- A multiplication does not leave the range `[0, mod]`: a product within it is kept, another is reduced (R127). -/
theorem modpowStep_le {mod : Nat} (hm : 0 < mod) (base acc : Nat) : modpowStep base mod acc ≤ mod := by
  unfold modpowStep
  split
  · exact (Nat.mod_lt _ hm).le
  · next h => exact Nat.le_of_not_lt h

theorem modpowStep_modEq (base mod acc : Nat) : modpowStep base mod acc ≡ acc * base [MOD mod] := by
  unfold modpowStep
  split
  · exact Nat.mod_modEq _ _
  · rfl

theorem modpowAcc_le {mod : Nat} (hm : 0 < mod) (base : Nat) : ∀ k, modpowAcc base mod k ≤ mod
  | 0 => hm
  | k + 1 => modpowStep_le hm base (modpowAcc base mod k)

/-- Multiplication and reduction both preserve congruence (R128). -/
theorem modpowAcc_modEq (base mod k : Nat) : modpowAcc base mod k ≡ base ^ k [MOD mod] := by
  induction k with
  | zero => rfl
  | succ k ih =>
    calc modpowAcc base mod (k + 1)
      _ ≡ modpowAcc base mod k * base [MOD mod] := modpowStep_modEq base mod _
      _ ≡ base ^ k * base [MOD mod] := ih.mul_right base
      _ = base ^ (k + 1) := (pow_succ base k).symm

/-- The accumulator is the loop of R125, as a recursor over the exponent. -/
theorem modpowAcc_eq_rec (base mod k : Nat) :
    modpowAcc base mod k =
      Nat.rec (motive := fun _ => Nat) 1
        (fun _ acc => if mod < acc * base then acc * base % mod else acc * base) k := by
  induction k with
  | zero => rfl
  | succ k ih => simp only [modpowAcc, modpowStep, ih]

/-- The accumulator fits the word that holds it, for it is at most the modulus (R127). -/
theorem toNat_ofNat_modpowAcc {mod : Word} (hm : mod ≠ 0#32) (base k : Nat) :
    (BitVec.ofNat 32 (modpowAcc base mod.toNat k)).toNat = modpowAcc base mod.toNat k := by
  have hpos : 0 < mod.toNat := BitVec.toNat_pos_of_ne_zero hm
  rw [BitVec.toNat_ofNat, Nat.mod_eq_of_lt ((modpowAcc_le hpos base k).trans_lt mod.isLt)]

/-- Where the function is defined the modulus is not 0 and its value is the accumulator. -/
theorem modpowF_eq_some {base exp mod r : Word} (h : modpowF base exp mod = some r) :
    0 < mod.toNat ∧ r.toNat = modpowAcc base.toNat mod.toNat exp.toNat := by
  unfold modpowF at h
  split at h
  · cases h
  · next hm =>
    cases h
    exact ⟨BitVec.toNat_pos_of_ne_zero hm, toNat_ofNat_modpowAcc hm _ _⟩

/-- Settles O40: a value below the modulus is its own residue, and the one other value is the modulus, of residue 0. -/
theorem modpowAgreesWithTheModularPower : Obligations.ModpowAgreesWithTheModularPower := by
  intro base exp mod r h
  obtain ⟨hpos, hr⟩ := modpowF_eq_some h
  have hle : r.toNat ≤ mod.toNat := hr ▸ modpowAcc_le hpos _ _
  have hmod : r.toNat % mod.toNat = base.toNat ^ exp.toNat % mod.toNat := hr ▸ modpowAcc_modEq _ _ _
  refine ⟨hle, hmod, hle.lt_or_eq.imp (fun hlt => ?_) fun heq => ⟨BitVec.eq_of_toNat_eq heq, ?_⟩⟩
  · rw [← hmod, Nat.mod_eq_of_lt hlt]
  · rw [← hmod, heq, Nat.mod_self]

/-- MODPOW stores the accumulator as a word, and nothing else (R126). -/
theorem exec_modpow {s : State} (hm : s.mpMod ≠ 0#32) :
    exec .modpow s =
      .next ({ s with mpRes := BitVec.ofNat 32 (modpowAcc s.mpBase.toNat s.mpMod.toNat s.mpExp.toNat) } : State).succeed :=
  exec_of_ok (i := .modpow) (evalModpow_ok_iff.2 ⟨hm, rfl⟩)

/-- Settles O39: the evaluation fails for modulus 0 only, and the accumulator it stores is not cut by the word. -/
theorem modpowResult : Obligations.ModpowResult := by
  refine fun s => ⟨fun hm => ⟨_, exec_modpow hm, ?_⟩, fun hm => ?_⟩
  · rw [toNat_ofNat_modpowAcc hm, modpowAcc_eq_rec]
  · exact exec_of_error (i := .modpow) (evalModpow_error_iff.2 ⟨hm, rfl⟩)

/-! ### The primality test -/

/-- An odd divisor of `n` from `d` up to the square root of `n`, which is what the trials look for from `d` on (R130). -/
def HasOddDivisorFrom (n d : Nat) : Prop := ∃ e, e % 2 = 1 ∧ d ≤ e ∧ e * e ≤ n ∧ n % e = 0

/-- Past the square root there is nothing to look for. -/
theorem not_hasOddDivisorFrom {n d : Nat} (h : n < d * d) : ¬ HasOddDivisorFrom n d := by
  rintro ⟨e, -, hde, hsq, -⟩
  exact absurd (h.trans_le ((Nat.mul_self_le_mul_self hde).trans hsq)) (lt_irrefl n)

/-- An odd `d` that fails the trial leaves the search to `d + 2`, the next odd number. -/
theorem hasOddDivisorFrom_add_two {n d : Nat} (hd : d % 2 = 1) (h : n % d ≠ 0) :
    HasOddDivisorFrom n (d + 2) ↔ HasOddDivisorFrom n d := by
  constructor
  · rintro ⟨e, hodd, hde, hrest⟩
    exact ⟨e, hodd, by omega, hrest⟩
  · rintro ⟨e, hodd, hde, hsq, hdvd⟩
    have hne : e ≠ d := by rintro rfl; exact h hdvd
    exact ⟨e, hodd, by omega, hsq, hdvd⟩

/-- The trials from an odd `d` on find a divisor where there is one, if they are enough to pass the square root. -/
theorem noOddDivisor_eq_false_iff {n fuel d : Nat} (hd : d % 2 = 1) (hfuel : n < (d + 2 * fuel) * (d + 2 * fuel)) :
    noOddDivisor n fuel d = false ↔ HasOddDivisorFrom n d := by
  induction fuel generalizing d with
  | zero => simpa [noOddDivisor] using not_hasOddDivisorFrom hfuel
  | succ fuel ih =>
    unfold noOddDivisor
    split
    · next hsq => simpa using not_hasOddDivisorFrom hsq
    · next hsq =>
      split
      · next hdvd => exact iff_of_true rfl ⟨d, hd, le_rfl, Nat.le_of_not_lt hsq, hdvd⟩
      · next hdvd =>
        have hnext : d + 2 + 2 * fuel = d + 2 * (fuel + 1) := by ring
        rw [ih (by omega) (hnext ▸ hfuel), hasOddDivisorFrom_add_two hd hdvd]

/-- `n` trials from 3 are enough (log entry 21). -/
theorem noOddDivisor_self_eq_false_iff (n : Nat) : noOddDivisor n n 3 = false ↔ HasOddDivisorFrom n 3 :=
  noOddDivisor_eq_false_iff rfl (by nlinarith)

/-- An odd number of at least 3 is a prime exactly when no odd number from 3 to its square root divides it (R131). -/
theorem prime_iff_not_hasOddDivisorFrom {n : Nat} (h3 : 3 ≤ n) (hodd : n % 2 = 1) :
    Nat.Prime n ↔ ¬ HasOddDivisorFrom n 3 := by
  rw [Nat.prime_def_le_sqrt]
  constructor
  · rintro ⟨-, hprime⟩ ⟨e, -, he3, hsq, hdvd⟩
    exact hprime e (by omega) (Nat.le_sqrt.2 hsq) (Nat.dvd_of_mod_eq_zero hdvd)
  · refine fun hnone => ⟨by omega, fun m hm2 hle hdvd => hnone ?_⟩
    have hm : m % 2 = 1 := Nat.odd_iff.1 ((Nat.odd_iff.2 hodd).of_dvd_nat hdvd)
    exact ⟨m, hm, by omega, Nat.le_sqrt.1 hle, Nat.mod_eq_zero_of_dvd hdvd⟩

/-- Where the function is defined the operand is odd and at least 3, and the value that of `n` trials. -/
theorem isPrimeF_eq_some {n : Nat} {b : Bool} (h : isPrimeF n = some b) :
    3 ≤ n ∧ n % 2 = 1 ∧ b = noOddDivisor n n 3 := by
  unfold isPrimeF at h
  split at h
  · cases h
  · split at h
    · cases h
    · cases h
      exact ⟨by omega, by omega, rfl⟩

/-- Settles O42: the trials fail to find a divisor exactly for the primes. -/
theorem isprimeFunctionIsExact : Obligations.IsprimeFunctionIsExact := by
  intro n b h
  obtain ⟨h3, hodd, rfl⟩ := isPrimeF_eq_some h
  rw [prime_iff_not_hasOddDivisorFrom h3 hodd, ← noOddDivisor_self_eq_false_iff, Bool.not_eq_false]

/-- The number in the register pair (R57). -/
theorem State.prN_toNat (s : State) : s.prN.toNat = s.prNHi.toNat * 2 ^ 32 + s.prNLo.toNat := by
  rw [State.prN, BitVec.toNat_append, ← Nat.shiftLeft_add_eq_or_of_lt s.prNLo.isLt, Nat.shiftLeft_eq]

/-- ISPRIME stores what the trials find, and nothing else (R129). -/
theorem exec_isprime {s : State} (h3 : 3 ≤ s.prN.toNat) (hodd : s.prN.toNat % 2 = 1) :
    exec .isprime s = .next ({ s with prRes := noOddDivisor s.prN.toNat s.prN.toNat 3 } : State).succeed :=
  exec_of_ok (i := .isprime) (evalIsprime_ok_iff.2 ⟨h3, hodd, rfl⟩)

/-- Settles O41: the evaluation fails outside the domain only, and stores what the trials find. -/
theorem isprimeResult : Obligations.IsprimeResult := by
  intro s
  rw [← State.prN_toNat]
  refine ⟨fun h3 hodd => ⟨_, exec_isprime h3 hodd, ?_⟩, fun hout => ?_⟩
  · exact noOddDivisor_self_eq_false_iff s.prN.toNat
  · exact exec_of_error (i := .isprime) (evalIsprime_error_iff.2 ⟨hout, rfl⟩)

end Sys2Proof.Machine
end


section
/-! The key-schedule unit (spec 42_keysched.md): the checks of KS_DERIVE over natural numbers; its formulas in the ring of 64-bit
words are the casts of the source's formulas over natural numbers, so that one reduction at the end gives the same value; a second
run finds the same inputs and stores what is there. -/

namespace Sys2Proof.Machine

/-! ### The checks -/

theorem minMult_pos_of_wf {p : Params} (h : p.wf = true) : 1 ≤ p.minMult := by
  simp only [Params.wf, Bool.and_eq_true, decide_eq_true_eq] at h
  omega

theorem vecMax_lt_of_wf {p : Params} (h : p.wf = true) : p.vecMax < 2 ^ 32 := by
  simp only [Params.wf, Bool.and_eq_true, decide_eq_true_eq] at h
  omega

/-- `MULT` is negative when its bit 31 is 1 (R37). -/
theorem State.multiplier_eq (s : State) :
    s.multiplier = if s.mult.getLsbD 31 then s.par.defaultMult else s.mult.toNat := by
  rw [State.multiplier, BitVec.msb_eq_getLsbD_last]

theorem State.saltBytes_eq_map (s : State) :
    s.saltBytes = (List.range s.saltLen.toNat).map (s.salt.read .salt s.draw) := by
  simp only [State.saltBytes, Memory.readRange, Nat.zero_add]

theorem State.passBytes_eq_map (s : State) :
    s.passBytes = (List.range s.passLen.toNat).map (s.pass.read .pass s.draw) := by
  simp only [State.passBytes, Memory.readRange, Nat.zero_add]

theorem State.passBytes_contains_zero_iff (s : State) :
    s.passBytes.contains 0#8 = true ↔ ∃ i < s.passLen.toNat, s.pass.read .pass s.draw i = 0#8 := by
  simp [State.passBytes_eq_map]

/-- The checks of R141 as the spec writes them, on the lengths as numbers. -/
theorem ksChecks_eq (s : State) :
    ksChecks s =
      if s.saltLen.toNat = 0 ∨ s.par.saltMax < s.saltLen.toNat then .error .param
      else if s.passLen.toNat = 0 ∨ s.par.passMax < s.passLen.toNat then .error .param
      else if ∃ i < s.passLen.toNat, s.pass.read .pass s.draw i = 0#8 then .error .param
      else if s.multiplier < s.par.minMult then .error .param
      else if s.par.vecMax < s.saltLen.toNat * s.passLen.toNat * s.multiplier then .error .resource
      else .ok (s.saltLen.toNat * s.passLen.toNat * s.multiplier) := by
  have hzero (v : Word) : v = 0#32 ↔ v.toNat = 0 := BitVec.toNat_inj.symm
  simp only [ksChecks, hzero, State.passBytes_contains_zero_iff]

theorem ksChecks_eq_ok {s : State} (hsalt : ¬ (s.saltLen.toNat = 0 ∨ s.par.saltMax < s.saltLen.toNat))
    (hpass : ¬ (s.passLen.toNat = 0 ∨ s.par.passMax < s.passLen.toNat))
    (hzero : ¬ ∃ i < s.passLen.toNat, s.pass.read .pass s.draw i = 0#8) (hmult : s.par.minMult ≤ s.multiplier)
    (hvec : s.saltLen.toNat * s.passLen.toNat * s.multiplier ≤ s.par.vecMax) :
    ksChecks s = .ok (s.saltLen.toNat * s.passLen.toNat * s.multiplier) := by
  rw [ksChecks_eq, if_neg hsalt, if_neg hpass, if_neg hzero, if_neg hmult.not_gt, if_neg hvec.not_gt]

/-! ### The command -/

/-- The words that KS_DERIVE stores when `vs` is the size (R144). -/
def State.ksWords (s : State) (vs : Nat) : List Word := ivWords s.par.bits s.saltBytes s.passBytes vs

/-- The `ival` that KS_DERIVE stores when `vs` is the size (R145). -/
def State.ksIval (s : State) (vs : Nat) : DWord :=
  ivalOf (initialSum (iSalt s.par.bits s.saltBytes) s.passBytes) (s.ksWords vs)

@[simp] theorem State.ksWords_length (s : State) (vs : Nat) : (s.ksWords vs).length = vs := ivWords_length ..

theorem exec_ksDerive_of_error {s : State} {e : ErrCode} (h : ksChecks s = .error e) :
    exec .ksDerive s = .next (s.fail e) :=
  exec_of_error (i := .ksDerive) (evalKsDerive_error_iff.2 h)

theorem exec_ksDerive_of_ok {s : State} {vs : Nat} (h : ksChecks s = .ok vs) :
    exec .ksDerive s = .next (s.storeSchedule (s.ksWords vs) (s.ksIval vs)).succeed :=
  exec_of_ok (i := .ksDerive) (evalKsDerive_ok_iff.2 ⟨vs, h, rfl⟩)

/-- `ERR = 0` after KS_DERIVE: the checks passed and the schedule was stored. -/
theorem ksChecks_of_exec_ksDerive {s t : State} (h : exec .ksDerive s = .next t) (herr : t.err = false) :
    ∃ vs, ksChecks s = .ok vs ∧ t = (s.storeSchedule (s.ksWords vs) (s.ksIval vs)).succeed := by
  cases hc : ksChecks s with
  | ok vs =>
    rw [exec_ksDerive_of_ok hc] at h
    cases h
    exact ⟨vs, rfl, rfl⟩
  | error e =>
    rw [exec_ksDerive_of_error hc] at h
    cases h
    cases herr

/-- Settles O44: each clause is the branch that the checks take. -/
theorem ksDeriveChecksInOrder : Obligations.KsDeriveChecksInOrder := by
  intro s
  simp only [← State.multiplier_eq]
  refine ⟨fun hsalt => ?_, fun hsalt hpass => ?_, fun hsalt hpass hzero => ?_, fun hsalt hpass hzero hmult => ?_,
    fun hsalt hpass hzero hmult hvec => ?_, fun hwf hsalt hpass hzero hmult hvec => ⟨?_, ?_⟩⟩
  · exact exec_ksDerive_of_error (e := .param) (by rw [ksChecks_eq, if_pos hsalt])
  · exact exec_ksDerive_of_error (e := .param) (by rw [ksChecks_eq, if_neg hsalt, if_pos hpass])
  · exact exec_ksDerive_of_error (e := .param) (by rw [ksChecks_eq, if_neg hsalt, if_neg hpass, if_pos hzero])
  · exact exec_ksDerive_of_error (e := .param)
      (by rw [ksChecks_eq, if_neg hsalt, if_neg hpass, if_neg hzero, if_pos hmult])
  · exact exec_ksDerive_of_error (e := .resource)
      (by rw [ksChecks_eq, if_neg hsalt, if_neg hpass, if_neg hzero, if_neg hmult.not_gt, if_pos hvec])
  · have hmin : 1 ≤ s.par.minMult := minMult_pos_of_wf hwf
    exact Nat.mul_pos (Nat.mul_pos (by omega) (by omega)) (by omega)
  · exact ⟨_, exec_ksDerive_of_ok (ksChecks_eq_ok hsalt hpass hzero hmult hvec), rfl⟩

/-! ### Sums of words as casts of natural numbers -/

/-- A function that adds up a term of each byte and its index, read on a range, is the sum over that range. -/
theorem indexedSum_range {M : Type} [AddCommMonoid M] {w : Nat} (F : Nat → List (BitVec w) → M) (term : Nat → BitVec w → M)
    (hnil : ∀ i, F i [] = 0) (hcons : ∀ i b bs, F i (b :: bs) = term i b + F (i + 1) bs) (f : Nat → BitVec w) (i n : Nat) :
    F i ((List.range n).map f) = ∑ j ∈ Finset.range n, term (i + j) (f j) := by
  induction n generalizing i f with
  | zero => exact hnil i
  | succ n ih =>
    rw [List.range_succ_eq_map, List.map_cons, List.map_map, hcons, ih, Finset.sum_range_succ', add_comm]
    simp only [Function.comp_apply, Nat.succ_eq_add_one, Nat.add_assoc, Nat.add_comm 1, Nat.add_zero]

theorem setWidth_eq_cast {v w : Nat} (x : BitVec v) : x.setWidth w = (x.toNat : BitVec w) := by
  rw [BitVec.natCast_eq_ofNat, BitVec.ofNat_toNat]

theorem toNat_cast (w n : Nat) : (n : BitVec w).toNat = n % 2 ^ w := by
  rw [BitVec.natCast_eq_ofNat, BitVec.toNat_ofNat]

theorem ipow64_eq_cast (b : Byte) (e : Nat) : ipow64 b e = ((b.toNat ^ e : Nat) : DWord) := by
  induction e with
  | zero => rfl
  | succ e ih => rw [ipow64, ih, setWidth_eq_cast, pow_succ, Nat.cast_mul]

theorem shl64_cast (n k : Nat) : shl64 (n : DWord) k = ((n * 2 ^ k : Nat) : DWord) := by
  apply BitVec.eq_of_toNat_eq
  rw [shl64, BitVec.toNat_shiftLeft, toNat_cast, toNat_cast, Nat.shiftLeft_eq, Nat.mod_mul_mod]

/-- The sum of R145 is that of the words as numbers. -/
theorem wordSum_eq_cast (n : Nat) (f : Nat → Word) :
    wordSum ((List.range n).map f) = ((∑ k ∈ Finset.range n, (f k).toNat : Nat) : DWord) := by
  rw [indexedSum_range (fun _ => wordSum) (fun _ v => v.setWidth 64) (fun _ => rfl) (fun _ _ _ => rfl) f 0, Nat.cast_sum]
  exact Finset.sum_congr rfl fun k _ => setWidth_eq_cast (f k)

/-- A number cut into its two 32-bit halves (R40). -/
theorem toNat_halves (d : DWord) : (d.extractLsb' 32 32).toNat * 2 ^ 32 + (d.extractLsb' 0 32).toNat = d.toNat := by
  simp only [BitVec.extractLsb'_toNat, Nat.shiftRight_eq_div_pow]
  omega

/-! ### The formulas of R142 to R145 over natural numbers -/

/-- `SALT[i]` as a number. -/
def State.saltNat (s : State) (i : Nat) : Nat := (s.salt.read .salt s.draw i).toNat

/-- `PASS[i]` as a number. -/
def State.passNat (s : State) (i : Nat) : Nat := (s.pass.read .pass s.draw i).toNat

/-- `iSalt` before any reduction (R142). -/
def State.iSaltNat (s : State) : Nat := ∑ i ∈ Finset.range s.saltLen.toNat, s.saltNat i ^ (i + 1) * s.par.bits

/-- `passSum` (R143). -/
def State.passSumNat (s : State) : Nat := ∑ i ∈ Finset.range s.passLen.toNat, s.passNat i

/-- `initial` before any reduction (R143). -/
def State.initialNat (s : State) : Nat :=
  ∑ i ∈ Finset.range s.passLen.toNat, (s.passNat i + s.iSaltNat) * 2 ^ (i + 1)

/-- `iv[k]`, reduced at the end (R144). -/
def State.ivNat (s : State) (k : Nat) : Nat :=
  let val := s.passNat (k % s.passLen.toNat)
  (s.initialNat + s.iSaltNat + s.passNat ((s.passSumNat - val) % s.passLen.toNat) ^ ((s.passSumNat + k) / val)) % 2 ^ 32

theorem iSalt_eq_cast (s : State) : iSalt s.par.bits s.saltBytes = (s.iSaltNat : DWord) := by
  rw [State.saltBytes_eq_map, iSalt, indexedSum_range (iSaltFrom s.par.bits)
    (fun i b => ipow64 b (i + 1) * BitVec.ofNat 64 s.par.bits) (fun _ => rfl) (fun _ _ _ => rfl), State.iSaltNat, Nat.cast_sum]
  refine Finset.sum_congr rfl fun i _ => ?_
  rw [Nat.zero_add, ipow64_eq_cast, Nat.cast_mul, ← BitVec.natCast_eq_ofNat, State.saltNat]

theorem passSum_eq_passSumNat (s : State) : passSum s.passBytes = s.passSumNat := by
  rw [State.passBytes_eq_map]
  exact indexedSum_range (fun _ => passSum) (fun _ b => b.toNat) (fun _ => rfl) (fun _ _ _ => rfl) _ 0 _

theorem initialSum_eq_cast (s : State) :
    initialSum (iSalt s.par.bits s.saltBytes) s.passBytes = (s.initialNat : DWord) := by
  rw [iSalt_eq_cast, State.passBytes_eq_map, initialSum, indexedSum_range (initialFrom s.iSaltNat)
    (fun i b => shl64 (b.setWidth 64 + (s.iSaltNat : DWord)) (i + 1)) (fun _ => rfl) (fun _ _ _ => rfl), State.initialNat,
    Nat.cast_sum]
  refine Finset.sum_congr rfl fun i _ => ?_
  rw [Nat.zero_add, setWidth_eq_cast, ← Nat.cast_add, shl64_cast, State.passNat]

theorem passByte_of_lt {s : State} {i : Nat} (h : i < s.passLen.toNat) : (passByte s.passBytes i).toNat = s.passNat i := by
  simp [passByte, State.passBytes_eq_map, State.passNat, h]

/-- A word of the schedule is the formula's value: its indices fall within the password, which is not empty. -/
theorem toNat_ivEntry {s : State} (hpl : 0 < s.passLen.toNat) (k : Nat) :
    (ivEntry (initialSum (iSalt s.par.bits s.saltBytes) s.passBytes + iSalt s.par.bits s.saltBytes) (passSum s.passBytes)
      s.passBytes k).toNat = s.ivNat k := by
  have hlen : s.passBytes.length = s.passLen.toNat := Memory.readRange_length ..
  have hbyte (n : Nat) : (passByte s.passBytes (n % s.passLen.toNat)).toNat = s.passNat (n % s.passLen.toNat) :=
    passByte_of_lt (Nat.mod_lt n hpl)
  rw [initialSum_eq_cast, iSalt_eq_cast, passSum_eq_passSumNat]
  simp only [ivEntry, hlen, hbyte, ipow64_eq_cast, ← Nat.cast_add]
  rw [BitVec.toNat_setWidth, toNat_cast, Nat.mod_mod_of_dvd _ (by decide), State.ivNat]

theorem State.toNat_ksWords {s : State} (hpl : 0 < s.passLen.toNat) {vs k : Nat} (hk : k < (s.ksWords vs).length) :
    (s.ksWords vs)[k].toNat = s.ivNat k := by
  simp only [State.ksWords, ivWords, List.getElem_map, List.getElem_range]
  exact toNat_ivEntry hpl k

theorem State.toNat_ksIval {s : State} (hpl : 0 < s.passLen.toNat) (vs : Nat) :
    (s.ksIval vs).toNat = (s.initialNat + ∑ k ∈ Finset.range vs, s.ivNat k) % 2 ^ 64 := by
  simp only [State.ksIval, ivalOf, State.ksWords, ivWords, wordSum_eq_cast, toNat_ivEntry hpl]
  rw [initialSum_eq_cast, ← Nat.cast_add, toNat_cast]

/-- Settles O45: the size fits its register, and the words and `ival` are the reductions of the formulas' values. -/
theorem ksDeriveComputesTheFormulas : Obligations.KsDeriveComputesTheFormulas := by
  intro s hwf
  simp only [← State.multiplier_eq]
  intro hsalt hsaltMax hpass hpassMax hbytes hmult hvec
  have hzero : ¬ ∃ i < s.passLen.toNat, s.pass.read .pass s.draw i = 0#8 := by
    rintro ⟨i, hi, h⟩
    exact hbytes i hi (by rw [h]; rfl)
  have hchecks : ksChecks s = .ok (s.saltLen.toNat * s.passLen.toNat * s.multiplier) :=
    ksChecks_eq_ok (by omega) (by omega) hzero hmult hvec
  generalize s.saltLen.toNat * s.passLen.toNat * s.multiplier = vs at hchecks hvec ⊢
  refine ⟨_, exec_ksDerive_of_ok hchecks, rfl, ?_, fun k hk => ?_, fun k hk => ?_, ?_⟩
  · have hfit : vs < 2 ^ 32 := hvec.trans_lt (vecMax_lt_of_wf hwf)
    simpa using hfit
  · have hread : (s.iv.writeRange 0 (s.ksWords vs)).read .iv s.draw k = (s.ksWords vs)[k]'(by simpa) :=
      Memory.read_writeRange_inside _ _ _ _ _ _ (Nat.zero_le k) (by simpa)
    exact (congrArg BitVec.toNat hread).trans (State.toNat_ksWords hpass _)
  · exact Memory.read_writeRange_outside _ _ _ _ _ _ (.inr (by simpa))
  · exact (toNat_halves (s.ksIval vs)).trans (State.toNat_ksIval hpass vs)

/-! ### A second run -/

/-- The operands and parameters of KS_DERIVE are the same (R140). -/
structure SameKsInputs (s u : State) : Prop where
  par : u.par = s.par
  saltLen : u.saltLen = s.saltLen
  passLen : u.passLen = s.passLen
  mult : u.mult = s.mult
  saltBytes : u.saltBytes = s.saltBytes
  passBytes : u.passBytes = s.passBytes

theorem SameKsInputs.ksChecks_ok {s u : State} (h : SameKsInputs s u) {vs : Nat} (hs : ksChecks s = .ok vs) :
    ksChecks u = .ok vs := by
  have hmult : u.multiplier = s.multiplier := by rw [State.multiplier, h.mult, h.par, State.multiplier]
  rw [ksChecks_ok_iff] at hs ⊢
  rwa [h.par, h.saltLen, h.passLen, h.passBytes, hmult]

theorem SameKsInputs.ksWords_eq {s u : State} (h : SameKsInputs s u) (vs : Nat) : u.ksWords vs = s.ksWords vs := by
  simp only [State.ksWords, h.par, h.saltBytes, h.passBytes]

theorem SameKsInputs.ksIval_eq {s u : State} (h : SameKsInputs s u) (vs : Nat) : u.ksIval vs = s.ksIval vs := by
  simp only [State.ksIval, h.ksWords_eq, h.par, h.saltBytes, h.passBytes]

/-- From a state that holds a schedule with its success flags, storing that schedule changes nothing, whatever the free values. -/
theorem State.storeSchedule_again (s : State) (words : List Word) (ival : DWord) (d : Nat) :
    (State.storeSchedule { (s.storeSchedule words ival).succeed with draw := d } words ival).succeed =
      { (s.storeSchedule words ival).succeed with draw := d } := by
  simp only [State.storeSchedule, State.succeed, Memory.writeRange_writeRange]

/-- Settles O46: written inputs read alike under every draw, so the second run computes and stores the same schedule. -/
theorem ksDeriveAgainChangesNothing : Obligations.KsDeriveAgainChangesNothing := by
  rintro s t d ⟨hsalt, hpass⟩ hexec herr
  obtain ⟨vs, hvs, rfl⟩ := ksChecks_of_exec_ksDerive hexec herr
  obtain ⟨⟨-, hsaltMax⟩, ⟨-, hpassMax⟩, -⟩ := ksChecks_ok_iff.1 hvs
  have hsame : SameKsInputs s { (s.storeSchedule (s.ksWords vs) (s.ksIval vs)).succeed with draw := d } :=
    { par := rfl, saltLen := rfl, passLen := rfl, mult := rfl
      saltBytes := Memory.readRange_of_written (hsalt hsaltMax) .salt d s.draw 0 _ (Nat.zero_add _).le
      passBytes := Memory.readRange_of_written (hpass hpassMax) .pass d s.draw 0 _ (Nat.zero_add _).le }
  rw [exec_ksDerive_of_ok (hsame.ksChecks_ok hvs), hsame.ksWords_eq, hsame.ksIval_eq, State.storeSchedule_again]

end Sys2Proof.Machine
end

section
/-! The cipher kernel (spec 43_cipher.md): each byte of the transform is a key byte minus the input byte, so the transform is its own
inverse; the shift amounts depend on five bits of the id; what XFORM commits. -/

namespace Sys2Proof.Machine

/-! ### The shift amount -/

/-- The wrapping product and sum give the amount that natural numbers give, since 32 divides `2^32`. -/
theorem shiftAmount_eq (id size : Word) (i : Nat) : shiftAmount id size i = (id.toNat * size.toNat + i) % 32 := by
  have hdvd : 32 ∣ 2 ^ 32 := by decide
  rw [shiftAmount, BitVec.toNat_add, BitVec.toNat_mul, BitVec.toNat_ofNat, ← Nat.add_mod, Nat.mod_mod_of_dvd _ hdvd]

/-- Settles O50: the remainder of a product and of a sum is that of the remainders. -/
theorem shiftAmountNeedsFiveBits : Obligations.ShiftAmountNeedsFiveBits := by
  intro id size i
  rw [shiftAmount_eq, Nat.add_mod, Nat.mul_mod, Nat.mod_add_mod]

/-- With full rows the id drops out of the shift amount (R169). -/
theorem shiftAmount_of_full_rows {size : Word} (h : size.toNat % 32 = 0) (id : Word) (i : Nat) :
    shiftAmount id size i = i % 32 := by
  rw [shiftAmountNeedsFiveBits, h, Nat.mul_zero, Nat.zero_add, Nat.mod_mod]

/-! ### One byte -/

/-- A narrower reading passes through a difference. -/
theorem setWidth_sub_of_le {w v : Nat} (x y : BitVec w) (h : v ≤ w) :
    (x - y).setWidth v = x.setWidth v - y.setWidth v := by
  rw [BitVec.sub_eq_add_neg, BitVec.setWidth_add _ _ h, BitVec.setWidth_neg_of_le h, ← BitVec.sub_eq_add_neg]

/-- The byte-level form (R164): only the low bytes matter. -/
theorem processByte_eq (ival : DWord) (crc x : Word) (b : Byte) :
    processByte ival crc x b = ival.setWidth 8 - crc.setWidth 8 - x.setWidth 8 - b := by
  have hle : 8 ≤ 64 := by decide
  simp only [processByte, setWidth_sub_of_le _ _ hle, BitVec.setWidth_setWidth_of_le _ hle, BitVec.setWidth_eq]

/-- A key byte minus (the key byte minus `b`) is `b` (R162). -/
theorem processByte_processByte (ival : DWord) (crc x : Word) (b : Byte) :
    processByte ival crc x (processByte ival crc x b) = b := by
  rw [processByte_eq, processByte_eq, sub_sub_self]

theorem setWidth_shl32 (v : Word) (k : Nat) : (shl32 v k).setWidth 8 = v.setWidth 8 <<< k :=
  BitVec.setWidth_shiftLeft_of_le (by decide)

theorem State.setWidth_ival (s : State) : s.ival.setWidth 8 = s.ivalLo.setWidth 8 := by
  rw [State.ival, BitVec.setWidth_append, dif_pos (by decide)]

/-! ### The transform of a block -/

theorem processF_getElem {iv : Nat → Word} {vs : Nat} {ival : DWord} {crc id : Word} {block : List Byte} {k : Nat}
    (h : k < block.length) :
    (processF iv vs ival crc id block)[k]'(by simpa) =
      processByte ival crc (shl32 (iv (k % vs)) (shiftAmount id (BitVec.ofNat 32 block.length) k)) block[k] := by
  simp only [processF, processFrom_getElem, Nat.zero_add]

/-- The transform of a block takes from the schedule and the id only the words and the shift amounts at its positions. -/
theorem processF_congr {iv iv' : Nat → Word} {vs : Nat} {ival : DWord} {crc id id' : Word} {block : List Byte}
    (hiv : ∀ k < block.length, iv (k % vs) = iv' (k % vs))
    (hshift : ∀ k < block.length,
      shiftAmount id (BitVec.ofNat 32 block.length) k = shiftAmount id' (BitVec.ofNat 32 block.length) k) :
    processF iv vs ival crc id block = processF iv' vs ival crc id' block := by
  refine List.ext_getElem (by simp) fun k hk _ => ?_
  have hk : k < block.length := by simpa using hk
  rw [processF_getElem hk, processF_getElem hk, hiv k hk, hshift k hk]

/-- The transform is its own inverse (R162): it keeps the length, so each byte meets the same key byte twice. -/
theorem processF_processF (iv : Nat → Word) (vs : Nat) (ival : DWord) (crc id : Word) (block : List Byte) :
    processF iv vs ival crc id (processF iv vs ival crc id block) = block := by
  refine List.ext_getElem (by simp) fun k _ hk => ?_
  rw [processF_getElem (by simpa), processF_getElem hk, processF_length, processByte_processByte]

/-- Settles O51: the length has no bits below 32, and with it every shift amount loses the id. -/
theorem fullRowsHideTheChunkId : Obligations.FullRowsHideTheChunkId := by
  intro iv vs ival crc id id' block hlen
  have hsize : (BitVec.ofNat 32 block.length).toNat % 32 = 0 := by
    rw [BitVec.toNat_ofNat, Nat.mod_mod_of_dvd _ (by decide), hlen]
  refine processF_congr (fun _ _ => rfl) fun k _ => ?_
  rw [shiftAmount_of_full_rows hsize, shiftAmount_of_full_rows hsize]

/-! ### The command -/

/-- The bytes that XFORM stores. -/
def State.xformOut (s : State) : List Byte := s.process s.hCrc (s.ibufBytes 0 s.inLen.toNat)

@[simp] theorem State.xformOut_length (s : State) : s.xformOut.length = s.inLen.toNat := by simp [State.xformOut]

/-- The length of the output is the word that `IN_LEN` holds. -/
theorem State.ofNat_xformOut_length (s : State) : BitVec.ofNat 32 s.xformOut.length = s.inLen := by simp

/-- XFORM stores its output as OBUF and `OUT_LEN`, and nothing else (R160). -/
theorem exec_xform {s : State} (hvs : s.vecSize ≠ 0#32) (hfit : s.inLen.toNat ≤ s.par.bufferSize) :
    exec .xform s = .next (s.storeOutput s.xformOut).succeed :=
  exec_of_ok (i := .xform) (evalXform_ok_iff.2 ⟨hvs, hfit, rfl⟩)

/-- `ERR = 0` after XFORM: the checks passed and the output was stored. -/
theorem xform_of_exec {s t : State} (h : exec .xform s = .next t) (herr : t.err = false) :
    s.vecSize ≠ 0#32 ∧ s.inLen.toNat ≤ s.par.bufferSize ∧ t = (s.storeOutput s.xformOut).succeed := by
  obtain ⟨u, hu, rfl⟩ | ⟨e, -, rfl⟩ := exec_cases h
  · obtain ⟨hvs, hfit, rfl⟩ := evalXform_ok_iff.1 hu
    exact ⟨hvs, hfit, rfl⟩
  · cases herr

theorem State.ibufBytes_getElem (s : State) {n k : Nat} (h : k < (s.ibufBytes 0 n).length) :
    (s.ibufBytes 0 n)[k] = s.ibuf.read .ibuf s.draw k := by
  simp only [State.ibufBytes, Memory.readRange_getElem, Nat.zero_add]

/-- What OBUF holds once an output is stored: its bytes from index 0 on. -/
theorem State.storeOutput_read_inside (s : State) {out : List Byte} {draw k : Nat} (h : k < out.length) :
    (s.storeOutput out).obuf.read .obuf draw k = out[k] :=
  Memory.read_writeRange_inside _ _ _ _ _ _ (Nat.zero_le k) h

/-- Beyond the output OBUF keeps what it held (log entry 12). -/
theorem State.storeOutput_read_outside (s : State) {out : List Byte} {draw k : Nat} (h : out.length ≤ k) :
    (s.storeOutput out).obuf.read .obuf draw k = s.obuf.read .obuf draw k :=
  Memory.read_writeRange_outside _ _ _ _ _ _ (.inr (by omega))

/-- A byte of XFORM's output in the byte-level form, its shift amount over natural numbers (R164). -/
theorem State.xformOut_getElem (s : State) {k : Nat} (h : k < s.inLen.toNat) :
    s.xformOut[k]'(by simpa) =
      s.ivalLo.setWidth 8 - s.hCrc.setWidth 8
        - ((s.ivWord (k % s.vecSize.toNat)).setWidth 8 <<< ((s.chunkId.toNat * s.inLen.toNat + k) % 32))
        - s.ibuf.read .ibuf s.draw k := by
  have hk : k < (s.ibufBytes 0 s.inLen.toNat).length := by simpa
  have hsize : BitVec.ofNat 32 (s.ibufBytes 0 s.inLen.toNat).length = s.inLen := by simp
  have hbyte : s.xformOut[k]'(by simpa) =
      processByte s.ival s.hCrc (shl32 (s.ivWord (k % s.vecSize.toNat)) (shiftAmount s.chunkId s.inLen k))
        (s.ibuf.read .ibuf s.draw k) := by
    simp only [State.xformOut, State.process, processF_getElem hk, State.ibufBytes_getElem, hsize]
  rw [hbyte, processByte_eq, State.setWidth_ival, setWidth_shl32, shiftAmount_eq]

/-- Settles O47: the state XFORM commits differs in OBUF, `OUT_LEN` and the status; OBUF holds the output and what it held beyond. -/
theorem xformComputesTheByteForm : Obligations.XformComputesTheByteForm := by
  intro s hvs hfit
  refine ⟨_, exec_xform hvs hfit, ?_, fun k hk => ?_, fun k hk => ?_⟩
  · simp only [State.succeed, State.storeOutput, State.ofNat_xformOut_length]
  · rw [State.succeed_obuf, State.storeOutput_read_inside s (by simpa), State.xformOut_getElem s hk, State.ivWord]
  · rw [State.succeed_obuf, State.storeOutput_read_outside s (by simpa)]

/-- Settles O48: each clause is the branch that the evaluation takes. -/
theorem xformChecksInOrder : Obligations.XformChecksInOrder := by
  refine fun s => ⟨fun hvs => ?_, fun hvs hlong => ?_⟩
  · exact exec_of_error (i := .xform) (e := .uninit) (if_pos hvs)
  · exact exec_of_error (i := .xform) (e := .resource) ((if_neg hvs).trans (if_pos hlong))

/-! ### A second run -/

/-- A range that reads as a sequence, element by element, is the sequence. -/
theorem Memory.readRange_eq_of_read {w : Nat} {m : Memory w} {b : Buf} {draw : Nat} {vs : List (BitVec w)}
    (h : ∀ k (hk : k < vs.length), m.read b draw k = vs[k]) : m.readRange b draw 0 vs.length = vs := by
  refine List.ext_getElem (by simp) fun k _ hk => ?_
  rw [Memory.readRange_getElem, Nat.zero_add, h k hk]

/-- Of the schedule, the transform reads the words below `VEC_SIZE` only (R160). -/
theorem State.process_congr {s u : State} (hpos : s.vecSize ≠ 0#32) (hvs : u.vecSize = s.vecSize) (hlo : u.ivalLo = s.ivalLo)
    (hhi : u.ivalHi = s.ivalHi) (hiv : ∀ k < s.vecSize.toNat, u.ivWord k = s.ivWord k) (hid : u.chunkId = s.chunkId)
    (crc : Word) (block : List Byte) : u.process crc block = s.process crc block := by
  rw [State.process, State.process, hvs, hid, State.ival, State.ival, hlo, hhi]
  exact processF_congr (fun k _ => hiv _ (Nat.mod_lt k (BitVec.toNat_pos_of_ne_zero hpos))) fun _ _ => rfl

/-- Settles O49: the second run meets the first one's output under the same key bytes, and the transform is its own inverse. -/
theorem xformIsSelfInverse : Obligations.XformIsSelfInverse := by
  intro s t u v hst herr hpar hvs hlo hhi hiv hcrc hid hlen hibuf huv
  obtain ⟨hpos, hfit, rfl⟩ := xform_of_exec hst herr
  have hin : u.ibufBytes 0 u.inLen.toNat = s.xformOut := by
    rw [State.ibufBytes, hlen, ← State.xformOut_length]
    refine Memory.readRange_eq_of_read fun k hk => ?_
    rw [hibuf k (by simpa using hk), State.succeed_obuf, State.storeOutput_read_inside s hk]
  have hout : u.xformOut = s.ibufBytes 0 s.inLen.toNat := by
    rw [State.xformOut, hin, hcrc, State.process_congr hpos hvs hlo hhi hiv hid]
    exact processF_processF ..
  rw [exec_xform (hvs ▸ hpos) (by rwa [hlen, hpar])] at huv
  cases huv
  refine ⟨rfl, ?_, fun k hk => ?_⟩
  · rw [State.succeed_outLen, State.storeOutput_outLen, State.ofNat_xformOut_length, hlen]
  · rw [State.succeed_obuf, State.storeOutput_read_inside u (by simpa [hlen])]
    simp only [hout, State.ibufBytes_getElem]

end Sys2Proof.Machine
end

section
/-! The chunk header (spec 44_framing.md R180 to R184): its bytes and its fields determine each other, and what HDR_PACK and
HDR_UNPACK commit. -/

namespace Sys2Proof.Machine

/-! ### Bytes and fields -/

/-- The four bytes of a word, most significant first, are the word (R15). -/
theorem unbe32_extractLsb' (w : Word) :
    unbe32 (w.extractLsb' 24 8) (w.extractLsb' 16 8) (w.extractLsb' 8 8) (w.extractLsb' 0 8) = w := by
  have h16 : w.extractLsb' 24 8 ++ w.extractLsb' 16 8 = w.extractLsb' 16 16 :=
    BitVec.extractLsb'_append_extractLsb'_eq_extractLsb' rfl
  have h24 : w.extractLsb' 16 16 ++ w.extractLsb' 8 8 = w.extractLsb' 8 24 :=
    BitVec.extractLsb'_append_extractLsb'_eq_extractLsb' rfl
  rw [unbe32, h16, h24]
  exact (BitVec.extractLsb'_append_extractLsb'_eq_extractLsb' rfl).trans BitVec.extractLsb'_eq_self

/-- Settles O52: every field of the list sits where the parser looks, and each word is its four bytes. -/
theorem headerParseInvertsHeaderBytes : Obligations.HeaderParseInvertsHeaderBytes := by
  refine fun p t os es c sh => ⟨hdrBytes_length .., ?_⟩
  rw [Header.mk.injEq]
  exact ⟨rfl, rfl, rfl, rfl, unbe32_extractLsb' os, unbe32_extractLsb' es, unbe32_extractLsb' c, unbe32_extractLsb' sh⟩

theorem hdrParse_hdrBytes (p : Params) (t : Byte) (os es c sh : Word) :
    hdrParse (hdrBytes p t os es c sh) =
      { sig0 := p.sig0, sig1 := p.sig1, sig2 := p.sig2, type := t, osize := os, esize := es, crc := c, shift := sh } :=
  (headerParseInvertsHeaderBytes p t os es c sh).2

theorem validType_iff {p : Params} {b : Byte} : validType p b = true ↔ b = Config.encBinary ∨ b = p.encBase64 := by
  simp only [validType, Bool.or_eq_true, beq_iff_eq]

theorem Header.signed_iff {h : Header} {p : Params} :
    h.signed p = true ↔ h.sig0 = p.sig0 ∧ h.sig1 = p.sig1 ∧ h.sig2 = p.sig2 := by
  simp only [Header.signed, Bool.and_eq_true, beq_iff_eq, and_assoc]

/-! ### A stored output -/

/-- The two parts of an output read back from OBUF, one after the other. -/
theorem State.storeOutput_append_readRange (s : State) (a b : List Byte) (draw : Nat) :
    (s.storeOutput (a ++ b)).obuf.readRange .obuf draw 0 a.length = a ∧
      (s.storeOutput (a ++ b)).obuf.readRange .obuf draw a.length b.length = b := by
  have hall : (s.obuf.writeRange 0 (a ++ b)).readRange .obuf draw 0 (a ++ b).length = a ++ b :=
    Memory.readRange_writeRange ..
  have hlen : a.length ≤ (a ++ b).length := by simp
  constructor
  · rw [State.storeOutput_obuf, ← Memory.readRange_take _ _ _ _ _ _ hlen, hall, List.take_left]
  · have hdrop := Memory.readRange_drop (s.obuf.writeRange 0 (a ++ b)) .obuf draw 0 (a ++ b).length a.length
    rw [hall, List.drop_left, Nat.zero_add, List.length_append, Nat.add_sub_cancel_left] at hdrop
    exact hdrop.symm

theorem State.storeOutput_readRange (s : State) (out : List Byte) (draw : Nat) :
    (s.storeOutput out).obuf.readRange .obuf draw 0 out.length = out :=
  Memory.readRange_writeRange ..

/-! ### HDR_PACK -/

/-- The bytes that HDR_PACK stores. -/
def State.packedHeader (s : State) : List Byte := hdrBytes s.par s.hType s.hOsize s.hEsize s.hCrc s.hShift

theorem exec_hdrPack {s : State} (h : validType s.par s.hType = true) :
    exec .hdrPack s = .next (s.storeOutput s.packedHeader).succeed :=
  exec_of_ok (i := .hdrPack) (evalHdrPack_ok_iff.2 ⟨h, rfl⟩)

/-- Settles O53: the state HDR_PACK commits holds the header's bytes in OBUF and what it held beyond; the type byte decides. -/
theorem hdrPackResult : Obligations.HdrPackResult := by
  refine fun s => ⟨fun htype => ?_, fun hbin h64 => ?_⟩
  · refine ⟨_, exec_hdrPack (validType_iff.2 htype), rfl, s.storeOutput_readRange s.packedHeader s.draw, fun a ha => ?_⟩
    exact s.storeOutput_read_outside (out := s.packedHeader) ha
  · have hbad : ¬ validType s.par s.hType = true := fun h => (validType_iff.1 h).elim hbin h64
    exact exec_of_error (i := .hdrPack) (e := .param) (if_neg hbad)

/-! ### HDR_UNPACK -/

/-- The fields of the header in IBUF, read element by element (R181). -/
theorem State.inputHeader_eq (s : State) :
    s.inputHeader =
      let b (i : Nat) := s.ibuf.read .ibuf s.draw i
      { sig0 := b 0, sig1 := b 1, sig2 := b 2, type := b 3
        osize := b 4 ++ b 5 ++ b 6 ++ b 7, esize := b 8 ++ b 9 ++ b 10 ++ b 11
        crc := b 12 ++ b 13 ++ b 14 ++ b 15, shift := b 16 ++ b 17 ++ b 18 ++ b 19 } := by
  simp [State.inputHeader, hdrParse, wordAt, unbe32, State.ibufBytes, Config.hdrLen, Memory.readRange_getElem]

/-- What HDR_UNPACK and DEC_CHUNK ask of the header in IBUF (R184). -/
def State.HeaderGood (s : State) : Prop :=
  s.inputHeader.sig0 = s.par.sig0 ∧ s.inputHeader.sig1 = s.par.sig1 ∧ s.inputHeader.sig2 = s.par.sig2 ∧
    (s.inputHeader.type = 0x10#8 ∨ s.inputHeader.type = s.par.encBase64)

theorem checkHeader_eq_ok_iff {s : State} {h : Header} :
    checkHeader s = .ok h ↔ 20 ≤ s.inLen.toNat ∧ s.HeaderGood ∧ h = s.inputHeader := by
  simp only [checkHeader_ok_iff, Header.signed_iff, validType_iff, State.HeaderGood, Config.encBinary, and_assoc]

theorem checkHeader_of_good {s : State} (hlen : 20 ≤ s.inLen.toNat) (hgood : s.HeaderGood) :
    checkHeader s = .ok s.inputHeader :=
  checkHeader_eq_ok_iff.2 ⟨hlen, hgood, rfl⟩

/-- The check has one code (R184). -/
theorem checkHeader_of_bad {s : State} (h : s.inLen.toNat < 20 ∨ ¬ s.HeaderGood) : checkHeader s = .error .format := by
  cases hc : checkHeader s with
  | error e => rw [checkHeader_error hc]
  | ok k =>
    obtain ⟨hlen, hgood, -⟩ := checkHeader_eq_ok_iff.1 hc
    exact absurd hgood (h.resolve_left hlen.not_gt)

/-- Settles O54: the check of the header decides, and on success its fields are stored. -/
theorem hdrUnpackResult : Obligations.HdrUnpackResult := by
  intro s b good
  have hgood : good ↔ s.HeaderGood := by rw [State.HeaderGood, s.inputHeader_eq]
  refine ⟨fun hlen h => ?_, fun h => ?_⟩
  · have hok : evalOf .hdrUnpack s = .ok (s.storeHeader s.inputHeader) :=
      evalHdrUnpack_ok_iff.2 ⟨_, checkHeader_of_good hlen (hgood.1 h), rfl⟩
    rw [exec_of_ok hok, s.inputHeader_eq]
    rfl
  · rw [hgood] at h
    have herr : evalOf .hdrUnpack s = .error .format := by rw [evalOf, evalHdrUnpack, checkHeader_of_bad h]
    exact exec_of_error herr

end Sys2Proof.Machine
end

section
/-! ENC_CHUNK (spec 44_framing.md R185 to R188, 43_cipher.md R165, R166): the order of its checks, the shift byte and the shift
field of the two modes, and the chunk it stores. -/

namespace Sys2Proof.Machine

/-! ### The shift byte and the shift field -/

/-- The function of R125 is defined exactly for a non-zero modulus. -/
theorem modpowF_eq_none_iff {base exp mod : Word} : modpowF base exp mod = none ↔ mod = 0#32 := by
  unfold modpowF
  split <;> simp [*]

/-- The shift byte of both modes: none is added in Symmetric mode (R166, R187). -/
def State.addedByte (s : State) (crc : Word) : Byte := if s.keyLen = 0#32 then 0#8 else s.shiftByte crc

/-- What the shift field of a chunk is: 0 in Symmetric mode, else the power of the shift byte under the selected entry (R166). -/
def State.ShiftFieldIs (s : State) (crc field : Word) : Prop :=
  (s.keyLen = 0#32 → field = 0#32) ∧
    (s.keyLen ≠ 0#32 → modpowF ((s.addedByte crc).setWidth 32) s.keyExponent s.keyModulus = some field)

/-- In both modes the shift adds its byte to every byte. -/
theorem State.encShift_ok_iff {s : State} {crc field : Word} {p c : List Byte} :
    s.encShift crc p = .ok (c, field) ↔ c = p.map (· + s.addedByte crc) ∧ s.ShiftFieldIs crc field := by
  unfold State.encShift State.ShiftFieldIs State.addedByte State.asymEnc
  by_cases hk : s.keyLen = 0#32
  · simp [hk, eq_comm (a := c), eq_comm (a := field)]
  · cases hm : modpowF ((s.shiftByte crc).setWidth 32) s.keyExponent s.keyModulus <;> simp [hk, hm, eq_comm (a := c)]

/-- With a non-zero modulus there is a shift field. -/
theorem State.exists_shiftFieldIs {s : State} (crc : Word) (h : s.keyLen ≠ 0#32 → s.keyModulus ≠ 0#32) :
    ∃ field, s.ShiftFieldIs crc field := by
  by_cases hk : s.keyLen = 0#32
  · exact ⟨0#32, fun _ => rfl, fun hne => absurd hk hne⟩
  · have hsome : modpowF ((s.addedByte crc).setWidth 32) s.keyExponent s.keyModulus ≠ none :=
      fun hnone => h hk (modpowF_eq_none_iff.1 hnone)
    obtain ⟨field, hfield⟩ := Option.ne_none_iff_exists'.1 hsome
    exact ⟨field, fun h0 => absurd h0 hk, fun _ => hfield⟩

theorem State.encShift_of_modulus_zero {s : State} (hk : s.keyLen ≠ 0#32) (hn : s.keyModulus = 0#32) (crc : Word)
    (p : List Byte) : s.encShift crc p = .error .param := by
  rw [State.encShift, if_neg hk, State.asymEnc, modpowF_eq_none_iff.2 hn]

/-! ### The checks -/

/-- The checks of R188 as the spec writes them. -/
theorem encChecks_eq (s : State) :
    encChecks s =
      if s.vecSize = 0#32 then .error .uninit
      else if s.hType ≠ 0x10#8 ∧ s.hType ≠ s.par.encBase64 then .error .param
      else if s.simple = true ∧ s.hType ≠ 0x10#8 then .error .param
      else if s.par.bufferSize < s.inLen.toNat then .error .resource
      else if s.keyLen ≠ 0#32 ∧ s.par.keyMax < s.keyLen.toNat then .error .param
      else .ok () := by
  have htype : (!validType s.par s.hType) = true ↔ s.hType ≠ 0x10#8 ∧ s.hType ≠ s.par.encBase64 := by
    rw [Bool.not_eq_true', ← Bool.not_eq_true, validType_iff, not_or, Config.encBinary]
  have hmode : (s.simple && s.hType != Config.encBinary) = true ↔ s.simple = true ∧ s.hType ≠ 0x10#8 := by
    rw [Bool.and_eq_true, bne_iff_ne, Config.encBinary]
  simp only [encChecks, htype, hmode]

theorem evalEncChunk_of_checks_error {s : State} {e : ErrCode} (h : encChecks s = .error e) :
    evalEncChunk s = .error e := by
  simp only [evalEncChunk, h]

/-- The check of the modulus is the last (R166). -/
theorem evalEncChunk_of_modulus_zero {s : State} (h : encChecks s = .ok ()) (hk : s.keyLen ≠ 0#32)
    (hn : s.keyModulus = 0#32) : evalEncChunk s = .error .param := by
  simp only [evalEncChunk, h, State.encShift_of_modulus_zero hk hn]

/-- Settles O55: each clause but the last is a branch of the checks; the modulus is checked after them. -/
theorem encChunkChecksInOrder : Obligations.EncChunkChecksInOrder := by
  intro s badType badMode tooLong n badKeys fails
  have fails_of_checks {e : ErrCode} (h : encChecks s = .error e) : fails (errNumber e) :=
    exec_of_error (i := .encChunk) (evalEncChunk_of_checks_error h)
  have heq := encChecks_eq s
  refine ⟨fun hvs => ?_, fun hvs htype => ?_, fun hvs htype hmode => ?_, fun hvs htype hmode hlong => ?_,
    fun hvs htype hmode hlong hkeys => ?_⟩
  · exact fails_of_checks (e := .uninit) (by rw [heq, if_pos hvs])
  · exact fails_of_checks (e := .param) (by rw [heq, if_neg hvs, if_pos htype])
  · exact fails_of_checks (e := .param) (by rw [heq, if_neg hvs, if_neg htype, if_pos hmode])
  · exact fails_of_checks (e := .resource) (by rw [heq, if_neg hvs, if_neg htype, if_neg hmode, if_pos hlong])
  · rw [if_neg hvs, if_neg htype, if_neg hmode, if_neg hlong] at heq
    obtain ⟨hk, hbad⟩ := hkeys
    by_cases hmax : s.par.keyMax < s.keyLen.toNat
    · exact fails_of_checks (e := .param) (by rw [heq, if_pos ⟨hk, hmax⟩])
    · have hok : encChecks s = .ok () := by rw [heq, if_neg fun h => hmax h.2]
      exact exec_of_error (i := .encChunk) (e := .param)
        (evalEncChunk_of_modulus_zero hok hk (hbad.resolve_left hmax))

/-! ### The chunk -/

/-- The plaintext of ENC_CHUNK (R188). -/
def State.plaintext (s : State) : List Byte := s.ibufBytes 0 s.inLen.toNat

/-- The CRC of the plaintext (R188). -/
def State.plainCrc (s : State) : Word := crc32 s.plaintext

/-- The payload that ENC_CHUNK stores: the transform of the plaintext, shifted (R188). -/
def State.payload (s : State) : List Byte := (s.process s.plainCrc s.plaintext).map (· + s.addedByte s.plainCrc)

/-- The bytes of the header that ENC_CHUNK stores (R188). -/
def State.chunkHeaderBytes (s : State) (field : Word) : List Byte :=
  hdrBytes s.par s.hType s.inLen s.encEsize s.plainCrc field

@[simp] theorem State.plaintext_length (s : State) : s.plaintext.length = s.inLen.toNat := State.ibufBytes_length ..

@[simp] theorem State.payload_length (s : State) : s.payload.length = s.inLen.toNat := by simp [State.payload]

@[simp] theorem State.chunkHeaderBytes_length (s : State) (field : Word) : (s.chunkHeaderBytes field).length = 20 := rfl

/-- When ENC_CHUNK succeeds, and the chunk it stores. -/
theorem evalEncChunk_ok_iff_storeChunk {s u : State} :
    evalEncChunk s = .ok u ↔
      encChecks s = .ok () ∧ ∃ field, s.ShiftFieldIs s.plainCrc field ∧ u = s.storeChunk s.plainCrc field s.payload := by
  rw [evalEncChunk_ok_iff]
  refine and_congr_right fun _ => ⟨?_, ?_⟩
  · rintro ⟨c, field, hshift, rfl⟩
    obtain ⟨rfl, hfield⟩ := State.encShift_ok_iff.1 hshift
    exact ⟨field, hfield, rfl⟩
  · rintro ⟨field, hfield, rfl⟩
    exact ⟨_, field, State.encShift_ok_iff.2 ⟨rfl, hfield⟩, rfl⟩

/-- The state after an ENC_CHUNK that succeeds with a shift field. -/
def State.afterEncChunk (s : State) (field : Word) : State := (s.storeChunk s.plainCrc field s.payload).succeed

theorem exec_encChunk {s : State} {field : Word} (hchk : encChecks s = .ok ()) (hfield : s.ShiftFieldIs s.plainCrc field) :
    exec .encChunk s = .next (s.afterEncChunk field) :=
  exec_of_ok (i := .encChunk) (evalEncChunk_ok_iff_storeChunk.2 ⟨hchk, field, hfield, rfl⟩)

/-- `ERR = 0` after ENC_CHUNK: the checks passed and the chunk was stored. -/
theorem encChunk_of_exec {s t : State} (h : exec .encChunk s = .next t) (herr : t.err = false) :
    encChecks s = .ok () ∧ ∃ field, s.ShiftFieldIs s.plainCrc field ∧ t = s.afterEncChunk field := by
  obtain ⟨u, hu, rfl⟩ | ⟨e, -, rfl⟩ := exec_cases h
  · obtain ⟨hchk, field, hfield, rfl⟩ := evalEncChunk_ok_iff_storeChunk.1 hu
    exact ⟨hchk, field, hfield, rfl⟩
  · cases herr

/-- `OUT_LEN` counts the header and the payload. -/
theorem State.afterEncChunk_outLen (s : State) (field : Word) : (s.afterEncChunk field).outLen = s.inLen + 20#32 := by
  rw [State.afterEncChunk, State.succeed_outLen, State.storeChunk_outLen, List.length_append, hdrBytes_length,
    State.payload_length, Nat.add_comm, BitVec.ofNat_add, BitVec.ofNat_toNat, BitVec.setWidth_eq]

/-- OBUF holds the header and after it the payload. -/
theorem State.afterEncChunk_readRange (s : State) (field : Word) (draw : Nat) :
    (s.afterEncChunk field).obuf.readRange .obuf draw 0 20 = s.chunkHeaderBytes field ∧
      (s.afterEncChunk field).obuf.readRange .obuf draw 20 s.inLen.toNat = s.payload := by
  have hparts := s.storeOutput_append_readRange (s.chunkHeaderBytes field) s.payload draw
  rwa [State.payload_length] at hparts

/-- Settles O56: the checks pass, the modulus gives the shift field, and the chunk is stored with its header registers. -/
theorem encChunkResult : Obligations.EncChunkResult := by
  intro s _ hvs htype hmode hlen n e hkeys m crc u sb es
  have hchk : encChecks s = .ok () :=
    encChecks_ok_iff.2 ⟨hvs, validType_iff.2 htype, hmode, hlen, fun hk => (hkeys hk).1⟩
  obtain ⟨field, hfield⟩ := State.exists_shiftFieldIs (s := s) s.plainCrc fun hk => (hkeys hk).2
  obtain ⟨hheader, hpayload⟩ := s.afterEncChunk_readRange field s.draw
  refine ⟨_, field, exec_encChunk hchk hfield, hfield.1, hfield.2, ?_, hheader, hpayload, fun a ha => ?_⟩
  · simp only [← s.afterEncChunk_outLen field]
    rfl
  · exact s.storeOutput_read_outside (out := s.chunkHeaderBytes field ++ s.payload) (by simpa using ha)

end Sys2Proof.Machine
end

section
/-! DEC_CHUNK (spec 44_framing.md R186, R187, R192, 43_cipher.md R165, R167, R168): the order of its checks, the shift byte it
takes off, and the text it delivers or refuses. -/

namespace Sys2Proof.Machine

/-! ### The shift byte taken off -/

/-- The shift byte that DEC_CHUNK takes off: none where the shift field is 0, else what the field decrypts to under the
selected entry (R167, R168). -/
def State.TakenByteIs (s : State) (field : Word) (sb : Byte) : Prop :=
  field = 0#32 ∧ sb = 0#8 ∨
    field ≠ 0#32 ∧ s.keyLen ≠ 0#32 ∧ s.keyLen.toNat ≤ s.par.keyMax ∧
      ∃ r, modpowF field s.keyExponent s.keyModulus = some r ∧ sb = r.setWidth 8

theorem State.decShift_of_takenByte {s : State} {field : Word} {sb : Byte} (h : s.TakenByteIs field sb) (p : List Byte) :
    s.decShift field p = .ok (p.map (· - sb)) := by
  obtain ⟨rfl, rfl⟩ | ⟨hfield, hk, hmax, r, hr, rfl⟩ := h
  · simp [State.decShift]
  · rw [State.decShift, if_neg hfield, if_neg hk, if_neg hmax.not_gt, State.asymDec, hr]

theorem State.decShift_of_no_keys {s : State} {field : Word} (hfield : field ≠ 0#32) (hk : s.keyLen = 0#32)
    (p : List Byte) : s.decShift field p = .error .uninit := by
  rw [State.decShift, if_neg hfield, if_pos hk]

theorem State.decShift_of_bad_keys {s : State} {field : Word} (hfield : field ≠ 0#32) (hk : s.keyLen ≠ 0#32)
    (h : s.par.keyMax < s.keyLen.toNat ∨ s.keyModulus = 0#32) (p : List Byte) : s.decShift field p = .error .param := by
  rw [State.decShift, if_neg hfield, if_neg hk]
  split
  · rfl
  · next hmax => rw [State.asymDec, modpowF_eq_none_iff.2 (h.resolve_left hmax)]

/-! ### The checks -/

theorem decChecks_of_bad_header {s : State} (hvs : s.vecSize ≠ 0#32) (hlong : ¬ s.par.dbuf < s.inLen.toNat)
    (h : s.inLen.toNat < 20 ∨ ¬ s.HeaderGood) : decChecks s = .error .format := by
  rw [decChecks, if_neg hvs, if_neg hlong, checkHeader_of_bad h]

/-- The checks of R192 that judge a good header, as the spec writes them. -/
theorem decChecks_of_good_header {s : State} (hvs : s.vecSize ≠ 0#32) (hlong : ¬ s.par.dbuf < s.inLen.toNat)
    (hlen : 20 ≤ s.inLen.toNat) (hgood : s.HeaderGood) :
    decChecks s =
      if s.simple = true ∧ s.inputHeader.type ≠ 0x10#8 then .error .param
      else if s.par.bufferSize < s.inputHeader.osize.toNat then .error .resource
      else if s.inLen.toNat - 20 < s.inputHeader.osize.toNat then .error .format
      else .ok s.inputHeader := by
  have hmode : (s.simple && s.inputHeader.type != Config.encBinary) = true ↔
      s.simple = true ∧ s.inputHeader.type ≠ 0x10#8 := by
    rw [Bool.and_eq_true, bne_iff_ne, Config.encBinary]
  have hhdr : Config.hdrLen = 20 := rfl
  rw [decChecks, if_neg hvs, if_neg hlong, checkHeader_of_good hlen hgood, hhdr]
  simp only [hmode]

theorem evalDecChunk_of_checks_error {s : State} {e : ErrCode} (h : decChecks s = .error e) :
    evalDecChunk s = .error e := by
  simp only [evalDecChunk, h]

theorem evalDecChunk_of_shift_error {s : State} {h : Header} {e : ErrCode} (hchk : decChecks s = .ok h)
    (hshift : ∀ p, s.decShift h.shift p = .error e) : evalDecChunk s = .error e := by
  simp only [evalDecChunk, hchk, hshift]

/-- Settles O57: the clauses on the header are branches of the checks; the keys are checked after them. -/
theorem decChunkChecksInOrder : Obligations.DecChunkChecksInOrder := by
  intro s h tooLong badHeader badMode bigText shortPayload noKeys n badKeys fails
  have fails_of_checks {e : ErrCode} (h : decChecks s = .error e) : fails (errNumber e) :=
    exec_of_error (i := .decChunk) (evalDecChunk_of_checks_error h)
  have hbad : badHeader ↔ s.inLen.toNat < 20 ∨ ¬ s.HeaderGood := by
    simp only [State.HeaderGood, not_and_or, not_or]
    rfl
  have of_good (hvs : s.vecSize ≠ 0#32) (hlong : ¬ tooLong) (hheader : ¬ badHeader) :=
    decChecks_of_good_header hvs hlong (not_lt.1 fun hlt => hheader (hbad.2 (.inl hlt)))
      (not_not.1 fun hng => hheader (hbad.2 (.inr hng)))
  refine ⟨fun hvs => ?_, fun hvs hlong => ?_, fun hvs hlong hheader => ?_, fun hvs hlong hheader hmode => ?_,
    fun hvs hlong hheader hmode hbig => ?_, fun hvs hlong hheader hmode hbig hshort => ?_,
    fun hvs hlong hheader hmode hbig hshort hno => ?_, fun hvs hlong hheader hmode hbig hshort hno hkeys => ?_⟩
  · exact fails_of_checks (e := .uninit) (if_pos hvs)
  · exact fails_of_checks (e := .resource) ((if_neg hvs).trans (if_pos hlong))
  · exact fails_of_checks (e := .format) (decChecks_of_bad_header hvs hlong (hbad.1 hheader))
  · exact fails_of_checks (e := .param) ((of_good hvs hlong hheader).trans (if_pos hmode))
  · exact fails_of_checks (e := .resource) ((of_good hvs hlong hheader).trans ((if_neg hmode).trans (if_pos hbig)))
  · exact fails_of_checks (e := .format)
      ((of_good hvs hlong hheader).trans ((if_neg hmode).trans ((if_neg hbig).trans (if_pos hshort))))
  · have hok := (of_good hvs hlong hheader).trans ((if_neg hmode).trans ((if_neg hbig).trans (if_neg hshort)))
    exact exec_of_error (i := .decChunk) (e := .uninit)
      (evalDecChunk_of_shift_error hok (State.decShift_of_no_keys hno.1 hno.2))
  · have hok := (of_good hvs hlong hheader).trans ((if_neg hmode).trans ((if_neg hbig).trans (if_neg hshort)))
    have hk : s.keyLen ≠ 0#32 := fun h0 => hno ⟨hkeys.1, h0⟩
    exact exec_of_error (i := .decChunk) (e := .param)
      (evalDecChunk_of_shift_error hok (State.decShift_of_bad_keys hkeys.1 hk hkeys.2))

/-! ### The text -/

/-- The text that DEC_CHUNK recovers under a header, with `sb` as the shift byte to take off (R192). -/
def State.recovered (s : State) (h : Header) (sb : Byte) : List Byte :=
  s.process h.crc ((s.ibufBytes 20 h.osize.toNat).map (· - sb))

@[simp] theorem State.recovered_length (s : State) (h : Header) (sb : Byte) :
    (s.recovered h sb).length = h.osize.toNat := by simp [State.recovered]

/-- DEC_CHUNK past the earlier checks: the comparison of the CRCs decides, but for SimpleMode (R192). -/
theorem evalDecChunk_of_takenByte {s : State} {h : Header} {sb : Byte} (hchk : decChecks s = .ok h)
    (hsb : s.TakenByteIs h.shift sb) :
    evalDecChunk s =
      if s.simple = false ∧ crc32 (s.recovered h sb) ≠ h.crc then .error .integrity
      else .ok ((s.storeOutput (s.recovered h sb)).storeHeader h) := by
  simp only [evalDecChunk, hchk, State.decShift_of_takenByte hsb, Bool.and_eq_true, Bool.not_eq_true', bne_iff_ne]
  rfl

theorem exec_decChunk_delivers {s : State} {h : Header} {sb : Byte} (hchk : decChecks s = .ok h)
    (hsb : s.TakenByteIs h.shift sb) (hcrc : s.simple = true ∨ crc32 (s.recovered h sb) = h.crc) :
    exec .decChunk s = .next ((s.storeOutput (s.recovered h sb)).storeHeader h).succeed := by
  refine exec_of_ok (i := .decChunk) ((evalDecChunk_of_takenByte hchk hsb).trans (if_neg ?_))
  rintro ⟨hsimple, hne⟩
  exact hcrc.elim (fun htrue => Bool.false_ne_true (hsimple.symm.trans htrue)) hne

theorem exec_decChunk_integrity {s : State} {h : Header} {sb : Byte} (hchk : decChecks s = .ok h)
    (hsb : s.TakenByteIs h.shift sb) (hsimple : s.simple = false) (hcrc : crc32 (s.recovered h sb) ≠ h.crc) :
    exec .decChunk s = .next (s.fail .integrity).dropOutput :=
  exec_of_error (i := .decChunk) ((evalDecChunk_of_takenByte hchk hsb).trans (if_pos ⟨hsimple, hcrc⟩))

/-- Settles O58: past the checks the comparison of the CRCs decides between the text and code 4. -/
theorem decChunkResult : Obligations.DecChunkResult := by
  intro s h n e hvs hlong hlen h0 h1 h2 htype hmode hbig hshort sb hsb p m
  have hheader : checkHeader s = .ok h := checkHeader_of_good hlen ⟨h0, h1, h2, htype⟩
  have hchk : decChecks s = .ok h := decChecks_ok_iff.2 ⟨hvs, hlong, hheader, hmode, hbig, hshort⟩
  have hcount : BitVec.ofNat 32 (s.recovered h sb).length = h.osize := by simp
  refine ⟨fun hcrc => ⟨_, exec_decChunk_delivers hchk hsb hcrc, ?_, ?_, fun a ha => ?_⟩,
    exec_decChunk_integrity hchk hsb⟩
  · simp only [State.succeed, State.storeHeader, State.storeOutput, hcount]
  · have hread := s.storeOutput_readRange (s.recovered h sb) s.draw
    rwa [State.recovered_length] at hread
  · exact s.storeOutput_read_outside (out := s.recovered h sb) (by simpa using ha)

end Sys2Proof.Machine
end

section
/-! A chunk from ENC_CHUNK to DEC_CHUNK (spec 44_framing.md R195, R196, 40_crc.md R118): on matched sides DEC_CHUNK takes off the shift
byte that ENC_CHUNK added and undoes the transform, so an untouched payload gives the plaintext back, and one changed byte
changes one byte of the text, which its CRC shows. -/

namespace Sys2Proof.Machine

/-! ### The header as DEC_CHUNK meets it -/

theorem bufferSize_lt_of_wf {p : Params} (h : p.wf = true) : p.bufferSize + 20 < 2 ^ 32 := by
  simp only [Params.wf, Bool.and_eq_true, decide_eq_true_eq] at h
  have hlen : Config.hdrLen = 20 := rfl
  omega

/-- Ranges that agree element by element are one sequence. -/
theorem Memory.readRange_congr {w : Nat} {m m' : Memory w} {b b' : Buf} {d d' i n : Nat}
    (h : ∀ k < n, m.read b d (i + k) = m'.read b' d' (i + k)) : m.readRange b d i n = m'.readRange b' d' i n := by
  refine List.ext_getElem (by simp) fun k hk _ => ?_
  rw [Memory.readRange_getElem, Memory.readRange_getElem, h k (by simpa using hk)]

/-- The header that ENC_CHUNK stores, as its fields (R188). -/
def State.chunkHeader (s : State) (field : Word) : Header :=
  { sig0 := s.par.sig0, sig1 := s.par.sig1, sig2 := s.par.sig2, type := s.hType
    osize := s.inLen, esize := s.encEsize, crc := s.plainCrc, shift := field }

theorem State.hdrParse_chunkHeaderBytes (s : State) (field : Word) :
    hdrParse (s.chunkHeaderBytes field) = s.chunkHeader field := hdrParse_hdrBytes ..

/-- A machine with the parameters of `s` that holds the header of a chunk of `s`, counts its bytes and admits its type. -/
structure HoldsHeaderOf (s : State) (field : Word) (u : State) : Prop where
  par : u.par = s.par
  vecSize : u.vecSize = s.vecSize
  mode : u.simple = true → s.hType = 0x10#8
  inLen : u.inLen.toNat = s.inLen.toNat + 20
  header : u.ibufBytes 0 20 = s.chunkHeaderBytes field

/-- The checks of ENC_CHUNK make the header pass those of DEC_CHUNK. -/
theorem HoldsHeaderOf.decChecks_eq {s u : State} {field : Word} (h : HoldsHeaderOf s field u) (henc : encChecks s = .ok ()) :
    decChecks u = .ok (s.chunkHeader field) := by
  obtain ⟨hvs, htype, -, hfit, -⟩ := encChecks_ok_iff.1 henc
  have hinput : u.inputHeader = s.chunkHeader field := by
    rw [State.inputHeader, Config.hdrLen, h.header, State.hdrParse_chunkHeaderBytes]
  have hheader : checkHeader u = .ok (s.chunkHeader field) := by
    rw [checkHeader_ok_iff, hinput, h.inLen, h.par]
    exact ⟨Nat.le_add_left .., Header.signed_iff.2 ⟨rfl, rfl, rfl⟩, htype, rfl⟩
  rw [decChecks_ok_iff, h.vecSize, h.inLen, h.par]
  exact ⟨hvs, Nat.add_le_add_right hfit 20, hheader, h.mode, hfit, Nat.le_refl _⟩

/-! ### The payload under the other side's keys -/

theorem State.afterEncChunk_outLen_toNat {s : State} (hwf : s.par.wf = true) (henc : encChecks s = .ok ()) (field : Word) :
    (s.afterEncChunk field).outLen.toNat = s.inLen.toNat + 20 := by
  obtain ⟨-, -, -, hfit, -⟩ := encChecks_ok_iff.1 henc
  have hlt : s.par.bufferSize + 20 < 2 ^ 32 := bufferSize_lt_of_wf hwf
  rw [State.afterEncChunk_outLen]
  exact BitVec.toNat_add_of_lt (show s.inLen.toNat + 20 < 2 ^ 32 by omega)

/-- Matched sides that agree on the first 20 bytes agree on the header. -/
theorem MatchedSides.holdsHeader {s u : State} {field : Word} (h : MatchedSides s (s.afterEncChunk field) u)
    (hwf : s.par.wf = true) (henc : encChecks s = .ok ()) (hlen : u.inLen = (s.afterEncChunk field).outLen)
    (hibuf : ∀ k < 20, u.ibuf.read .ibuf u.draw k =
      (s.afterEncChunk field).obuf.read .obuf (s.afterEncChunk field).draw k) : HoldsHeaderOf s field u := by
  obtain ⟨hpar, hmode, -, hvs, -⟩ := h
  refine ⟨hpar, hvs, hmode, by rw [hlen, State.afterEncChunk_outLen_toNat hwf henc], ?_⟩
  rw [← (s.afterEncChunk_readRange field (s.afterEncChunk field).draw).1]
  exact Memory.readRange_congr fun k hk => by simpa only [Nat.zero_add] using hibuf k hk

/-- DEC_CHUNK on the matched side takes off the byte that ENC_CHUNK added (R166, R167, R168). -/
theorem MatchedSides.takenByteIs {s u : State} {field : Word} (h : MatchedSides s (s.afterEncChunk field) u)
    (hfield : s.ShiftFieldIs s.plainCrc field) : u.TakenByteIs field (s.addedByte s.plainCrc) := by
  obtain ⟨-, -, -, -, -, -, -, ⟨hk, -⟩ | ⟨hk, huk, hmax, hn, hzero, hpow⟩⟩ := h
  · exact .inl ⟨hfield.1 hk, if_pos hk⟩
  · have hbyte : s.addedByte s.plainCrc = (s.rand + (s.afterEncChunk field).hCrc).setWidth 8 := if_neg hk
    by_cases h0 : field = 0#32
    · refine .inl ⟨h0, hbyte.trans ?_⟩
      exact not_not.1 fun hne => hzero hne h0
    · obtain ⟨r, hr, hrb⟩ := hpow h0
      rw [← hn] at hr
      exact .inr ⟨h0, huk, hmax, r, hr, hbyte.trans hrb.symm⟩

/-- The matched side recovers a text as the sender would (R161, R187). -/
theorem MatchedSides.recovered_eq {s t u : State} (h : MatchedSides s t u) (hpos : s.vecSize ≠ 0#32) (field : Word)
    (sb : Byte) :
    u.recovered (s.chunkHeader field) sb =
      s.process s.plainCrc ((u.ibufBytes 20 s.inLen.toNat).map (· - sb)) := by
  obtain ⟨-, -, hid, hvs, hlo, hhi, hiv, -⟩ := h
  exact State.process_congr hpos hvs hlo hhi hiv hid ..

/-- The payload less the shift byte is the transform of the plaintext, and the transform undoes itself (R162). -/
theorem State.process_payload (s : State) :
    s.process s.plainCrc (s.payload.map (· - s.addedByte s.plainCrc)) = s.plaintext := by
  have hunshift : s.payload.map (· - s.addedByte s.plainCrc) = s.process s.plainCrc s.plaintext := by
    simp [State.payload, Function.comp_def]
  rw [hunshift]
  exact processF_processF ..

/-- Settles O59: the header passes, the shift byte comes off, and the text recovered is the plaintext with its CRC. -/
theorem chunkRoundTrip : Obligations.ChunkRoundTrip := by
  intro s t u hwf hst herr hmatch hlen hibuf
  obtain ⟨henc, field, hfield, rfl⟩ := encChunk_of_exec hst herr
  have hcount := State.afterEncChunk_outLen_toNat hwf henc field
  have hheader : HoldsHeaderOf s field u :=
    hmatch.holdsHeader hwf henc hlen fun k hk => hibuf k (hcount ▸ by omega)
  have hpayload : u.ibufBytes 20 s.inLen.toNat = s.payload := by
    rw [← (s.afterEncChunk_readRange field (s.afterEncChunk field).draw).2]
    exact Memory.readRange_congr fun k hk => hibuf _ (hcount ▸ by omega)
  have htext : u.recovered (s.chunkHeader field) (s.addedByte s.plainCrc) = s.plaintext := by
    rw [hmatch.recovered_eq (encChecks_ok_iff.1 henc).1, hpayload, State.process_payload]
  refine ⟨_, exec_decChunk_delivers (hheader.decChecks_eq henc) (hmatch.takenByteIs hfield)
    (.inr (congrArg crc32 htext)), rfl, rfl, ?_, fun k hk => ?_⟩
  · simp [htext]
  · have hlt : k < s.plaintext.length := by simpa using hk
    rw [State.succeed_obuf, State.storeHeader_obuf, htext, State.storeOutput_read_inside u hlt]
    exact s.ibufBytes_getElem hlt

/-! ### One changed byte -/

/-- Two sequences of one length that differ at one place only. -/
def DifferOnlyAt (k : Nat) (a b : List Byte) : Prop := a.length = b.length ∧ ∀ i, a[i]? = b[i]? ↔ i ≠ k

/-- Such ranges of two memories. -/
theorem Memory.readRange_differOnlyAt {m m' : Memory 8} {b b' : Buf} {d d' i n k : Nat} (hk : k < n)
    (hne : m.read b d (i + k) ≠ m'.read b' d' (i + k))
    (heq : ∀ j < n, j ≠ k → m.read b d (i + j) = m'.read b' d' (i + j)) :
    DifferOnlyAt k (m.readRange b d i n) (m'.readRange b' d' i n) := by
  refine ⟨by simp, fun j => ?_⟩
  rw [Memory.readRange_getElem?, Memory.readRange_getElem?]
  by_cases hj : j < n
  · rw [if_pos hj, if_pos hj, Option.some_inj]
    exact ⟨fun h hjk => hne (hjk ▸ h), heq j hj⟩
  · rw [if_neg hj, if_neg hj]
    exact ⟨fun _ hjk => hj (hjk ▸ hk), fun _ => rfl⟩

/-- A function of each byte and its place that tells bytes apart keeps the difference. -/
theorem DifferOnlyAt.of_getElem?_map {k : Nat} {a b a' b' : List Byte} (h : DifferOnlyAt k a b)
    (hlen : a'.length = b'.length) {f : Nat → Byte → Byte} (hf : ∀ i, Function.Injective (f i))
    (ha : ∀ i, a'[i]? = a[i]?.map (f i)) (hb : ∀ i, b'[i]? = b[i]?.map (f i)) : DifferOnlyAt k a' b' := by
  refine ⟨hlen, fun i => ?_⟩
  rw [ha, hb, (Option.map_injective (hf i)).eq_iff, h.2]

theorem DifferOnlyAt.map {k : Nat} {a b : List Byte} (h : DifferOnlyAt k a b) {f : Byte → Byte}
    (hf : Function.Injective f) : DifferOnlyAt k (a.map f) (b.map f) :=
  h.of_getElem?_map (by simpa using h.1) (f := fun _ => f) (fun _ => hf) (fun _ => List.getElem?_map)
    (fun _ => List.getElem?_map)

theorem processByte_injective (ival : DWord) (crc x : Word) : Function.Injective (processByte ival crc x) :=
  Function.LeftInverse.injective (processByte_processByte ival crc x)

/-- The transform goes byte by byte, with a key byte that depends on the place and the length (R161). -/
theorem processF_getElem? (iv : Nat → Word) (vs : Nat) (ival : DWord) (crc id : Word) (block : List Byte) (k : Nat) :
    (processF iv vs ival crc id block)[k]? =
      block[k]?.map (processByte ival crc (shl32 (iv (k % vs)) (shiftAmount id (BitVec.ofNat 32 block.length) k))) := by
  by_cases hk : k < block.length
  · rw [List.getElem?_eq_getElem (by simpa), processF_getElem hk, List.getElem?_eq_getElem hk, Option.map_some]
  · rw [List.getElem?_eq_none (by simpa using hk), List.getElem?_eq_none (by simpa using hk), Option.map_none]

theorem DifferOnlyAt.process {k : Nat} {a b : List Byte} (h : DifferOnlyAt k a b) (s : State) (crc : Word) :
    DifferOnlyAt k (s.process crc a) (s.process crc b) :=
  h.of_getElem?_map (by simpa using h.1) (fun _ => processByte_injective ..) (processF_getElem? _ _ _ _ _ a)
    (fun i => by rw [h.1]; exact processF_getElem? _ _ _ _ _ b i)

/-- CRC-32 sees one changed byte (R118). -/
theorem DifferOnlyAt.crc32_ne {k : Nat} {a b : List Byte} (h : DifferOnlyAt k a b) : crc32 a ≠ crc32 b := by
  obtain ⟨hlen, hget⟩ := h
  have hka : k < a.length := by
    by_contra hk
    refine (hget k).1 ?_ rfl
    rw [List.getElem?_eq_none (by omega), List.getElem?_eq_none (by omega)]
  have hkb : k < b.length := hlen ▸ hka
  have hbefore : a.take k = b.take k := List.ext_getElem? fun i => by
    rw [List.getElem?_take, List.getElem?_take]
    split
    · next hi => exact (hget i).2 hi.ne
    · rfl
  have hafter : a.drop (k + 1) = b.drop (k + 1) := List.ext_getElem? fun i => by
    rw [List.getElem?_drop, List.getElem?_drop]
    exact (hget _).2 (by omega)
  have hbyte : a[k] ≠ b[k] := fun heq =>
    (hget k).1 (by rw [List.getElem?_eq_getElem hka, List.getElem?_eq_getElem hkb, heq]) rfl
  have ha : a = a.take k ++ a[k] :: a.drop (k + 1) := by simp
  have hb : b = a.take k ++ b[k] :: a.drop (k + 1) := by rw [hbefore, hafter]; simp
  intro hcrc
  have hraw : crcUpdate Config.crcPreset a = crcUpdate Config.crcPreset b := (BitVec.xor_left_inj _).1 hcrc
  rw [ha, hb] at hraw
  exact crcSeesOneChangedByte _ _ _ _ _ hbyte hraw

/-- Settles O60: one byte of the recovered text is not the plaintext's, and its CRC is not the header's. -/
theorem changedPayloadByteIsDetected : Obligations.ChangedPayloadByteIsDetected := by
  intro s t u j hwf hst herr hmatch hsimple hlen hj hjlt hibuf hne
  obtain ⟨henc, field, hfield, rfl⟩ := encChunk_of_exec hst herr
  have hcount := State.afterEncChunk_outLen_toNat hwf henc field
  have hheader : HoldsHeaderOf s field u :=
    hmatch.holdsHeader hwf henc hlen fun k hk => hibuf k (hcount ▸ by omega) (by omega)
  have hpayload : DifferOnlyAt (j - 20) (u.ibufBytes 20 s.inLen.toNat) s.payload := by
    rw [← (s.afterEncChunk_readRange field (s.afterEncChunk field).draw).2]
    refine Memory.readRange_differOnlyAt (by omega) ?_ fun k hk hkj => ?_
    · rwa [Nat.add_sub_cancel' hj]
    · exact hibuf _ (hcount ▸ by omega) (by omega)
  have htext : DifferOnlyAt (j - 20) (u.recovered (s.chunkHeader field) (s.addedByte s.plainCrc)) s.plaintext := by
    rw [hmatch.recovered_eq (encChecks_ok_iff.1 henc).1, ← State.process_payload]
    exact (hpayload.map sub_left_injective).process s s.plainCrc
  exact ⟨_, exec_decChunk_integrity (hheader.decChecks_eq henc) (hmatch.takenByteIs hfield) hsimple htext.crc32_ne,
    rfl, rfl, rfl⟩

end Sys2Proof.Machine
end

section
/-! The control commands (spec 45_control.md R210, R211): NOP commits the state as it stands, CLEANUP the state without its key
schedule and its key material, on which the cipher commands then fail. -/

namespace Sys2Proof.Machine

/-! ### NOP -/

/-- NOP has no writes of its own: its commit is the bare success (R210). -/
theorem exec_nop (s : State) : exec .nop s = .next s.succeed := exec_of_ok (i := .nop) rfl

/-- After a command that succeeds only `DONE` can raise the interrupt output (R226). -/
theorem State.succeed_irq (s : State) : s.succeed.irq = s.doneIe := by simp [State.irq]

/-- Settles O33: the accept of the word 0 and the commit of NOP, one after the other, write `CMD` and the status. -/
theorem nopResult : Obligations.NopResult := by
  refine fun s => ⟨exec_nop s, fun hb => ⟨(s.accept 0#32).succeed, ?_, rfl, ?_⟩⟩
  · rw [State.wr_cmd_idle hb, exec_nop]
  · rw [State.succeed_irq, State.accept_doneIe]

/-! ### CLEANUP -/

theorem exec_cleanup (s : State) : exec .cleanup s = .next s.cleanup.succeed := exec_of_ok (i := .cleanup) rfl

/-- What CLEANUP writes it finds already written the second time (R211). -/
theorem State.cleanup_succeed_again (s : State) : s.cleanup.succeed.cleanup.succeed = s.cleanup.succeed := rfl

/-- The first check of the three cipher commands is that there is a key schedule (R160, R188, R192). -/
theorem evalOf_of_no_schedule {i : Instr} {s : State} (hi : i ∈ [Instr.xform, .encChunk, .decChunk]) (hvs : s.vecSize = 0#32) :
    evalOf i s = .error .uninit := by
  simp only [List.mem_cons, List.not_mem_nil, or_false] at hi
  obtain rfl | rfl | rfl := hi
  · exact if_pos hvs
  · exact evalEncChunk_of_checks_error (if_pos hvs)
  · exact evalDecChunk_of_checks_error (if_pos hvs)

/-- Without a key schedule the cipher commands report `E_UNINIT`. -/
theorem exec_of_no_schedule {i : Instr} {s : State} (hi : i ∈ [Instr.xform, .encChunk, .decChunk]) (hvs : s.vecSize = 0#32) :
    exec i s = .next (s.fail .uninit).dropOutput := by
  have hdrop : ∀ j ∈ [Instr.xform, .encChunk, .decChunk], dropsOutput j = true := by decide
  rw [exec_of_error (evalOf_of_no_schedule hi hvs), if_pos (hdrop i hi)]

/-- Settles O34: the state CLEANUP commits has empty key registers and zeroed memories, which the cipher commands refuse and a
second CLEANUP leaves. -/
theorem cleanupResult : Obligations.CleanupResult := by
  refine fun s => ⟨s.cleanup.succeed, exec_cleanup s, rfl, rfl, rfl, fun d k => ?_, fun i hi => ?_, ?_⟩
  · exact ⟨Memory.read_zeros .iv d k, Memory.read_zeros .keyn d k, Memory.read_zeros .keyx d k⟩
  · exact ⟨_, exec_of_no_schedule hi rfl, rfl, rfl⟩
  · rw [exec_cleanup, State.cleanup_succeed_again]

end Sys2Proof.Machine
end

section
/-! Failures, the error code and the interrupt output (spec 60_exceptions.md R222, R223, R226): what a failed commit writes, and
which events of a run can move `ERRCODE` and the interrupt output. -/

namespace Sys2Proof.Machine

/-! ### Commits -/

/-- A command that ends with `ERR = 1` has committed a failure with some code (R222). -/
theorem exec_failed {i : Instr} {s t : State} (h : exec i s = .next t) (herr : t.err = true) :
    ∃ e, t = if dropsOutput i then (s.fail e).dropOutput else s.fail e := by
  obtain ⟨u, -, rfl⟩ | ⟨e, -, ht⟩ := exec_cases h
  · exact absurd herr Bool.false_ne_true
  · exact ⟨e, ht⟩

/-- Settles O9: of the two forms of a failure only that of the output commands writes `OUT_LEN`. -/
theorem failedCommandWritesOnlyItsStatus : Obligations.FailedCommandWritesOnlyItsStatus := by
  refine ⟨fun i s t h herr => ?_, fun s e he => commitStep_of_error he⟩
  obtain ⟨e, rfl⟩ := exec_failed h herr
  cases dropsOutput i <;> rfl

/-- Settles O11: a commit sets `DONE`, sets `ERR` exactly where it raises a code, and keeps the two enables. -/
theorem interruptAfterCommit : Obligations.InterruptAfterCommit := by
  intro i s t h
  obtain ⟨t', h', -, hdone, -, -, herr, -⟩ := everyCommitReportsItsOutcome i s
  obtain rfl : t = t' := Host.Outcome.next.inj (h.symm.trans h')
  obtain ⟨hframe, -⟩ := exec_frame h
  have hdoneIe : t.doneIe = s.doneIe := (congrArg State.doneIe hframe :)
  have herrIe : t.errIe = s.errIe := (congrArg State.errIe hframe :)
  simp [t.irq_iff, hdone, herr, hdoneIe, herrIe]

/-! ### Host transactions -/

/-- Of the registers only `CMD`, `STATUS` and `IEN` reach the four bits behind the interrupt output (R226). -/
theorem State.writeReg_irq (s : State) {r : Reg} (hr : r ∉ [Reg.cmd, .status, .ien]) (v : Word) :
    (s.writeReg r v).irq = s.irq := by
  cases r with
  | cmd | status | ien => simp at hr
  | bufData => exact (congrArg State.irq (s.storeData_frame v) :)
  | _ => rfl

/-- Of the registers only `CMD` reaches `ERRCODE`; a write to `STATUS` leaves it (R223). -/
theorem State.writeReg_errcode (s : State) {r : Reg} (hr : r ≠ .cmd) (v : Word) :
    (s.writeReg r v).errcode = s.errcode := by
  cases r with
  | cmd => exact absurd rfl hr
  | bufData => exact (congrArg State.errcode (s.storeData_frame v) :)
  | _ => rfl

/-- A transaction that is no write to a register of an idle machine leaves the interrupt output and `ERRCODE`. -/
theorem State.transact_report (s : State) (u : Transaction) :
    ((s.transact u).irq = s.irq ∧ (s.transact u).errcode = s.errcode) ∨
    (s.busy = false ∧ ∃ r v, u = .wr (regIndex r) v ∧ s.transact u = s.writeReg r v) := by
  cases u with
  | rd index =>
    simp only [State.transact]
    obtain ⟨x, hrd | hrd⟩ := s.rd_cases index <;> rw [hrd] <;> exact .inl ⟨rfl, rfl⟩
  | wr index v =>
    simp only [State.transact]
    obtain ⟨-, hwr⟩ | ⟨-, hwr⟩ | ⟨hb, r, rfl, hwr⟩ := s.wr_cases index v
    · rw [hwr]; exact .inl ⟨rfl, rfl⟩
    · rw [hwr]; exact .inl ⟨rfl, rfl⟩
    · exact .inr ⟨hb, r, v, rfl, hwr⟩

/-! ### Steps -/

/-- The interrupt output and `ERRCODE` stay, unless the step is an idle write to a register, a commit or a change of `rst`. -/
theorem step_report {s t : State} (h : step s = .next t) :
    (t.irq = s.irq ∧ t.errcode = s.errcode) ∨
    (s.rst = false ∧ s.busy = false ∧
      ∃ r v rest, s.turns = .host (.wr (regIndex r) v) :: rest ∧ t = s.advance.writeReg r v) ∨
    CommitDue s ∨ ResetDue s := by
  obtain (rfl | rfl) | ⟨hr, u, rest, hu, rfl⟩ | ⟨hdue, -⟩ | ⟨hreset, -⟩ := step_next_cases h
  · exact .inl ⟨rfl, rfl⟩
  · exact .inl ⟨rfl, rfl⟩
  · obtain hk | ⟨hb, r, v, rfl, hw⟩ := s.advance.transact_report u
    · exact .inl hk
    · exact .inr (.inl ⟨hr, hb, r, v, rest, hu, hw⟩)
  · exact .inr (.inr (.inl hdue))
  · exact .inr (.inr (.inr hreset))

/-- Settles O12: an idle write that moves the interrupt output is one to `CMD`, `STATUS` or `IEN`. -/
theorem interruptChangesOnlyAtNamedEvents : Obligations.InterruptChangesOnlyAtNamedEvents := by
  intro s t h hne
  obtain ⟨hk, -⟩ | ⟨hr, hb, r, v, rest, hu, rfl⟩ | hdue | hreset := step_report h
  · exact absurd hk hne
  · have hmem : r ∈ [Reg.cmd, .status, .ien] := by
      by_contra hout
      exact hne (s.advance.writeReg_irq hout v)
    exact .inl ⟨hr, hb, r, v, rest, hmem, hu⟩
  · exact .inr (.inl hdue)
  · exact .inr (.inr hreset)

/-- Settles O13: an idle write that moves `ERRCODE` is an accept. -/
theorem errorCodeStaysUntilTheNextAccept : Obligations.ErrorCodeStaysUntilTheNextAccept := by
  intro s t h hne
  obtain ⟨-, hk⟩ | ⟨hr, hb, r, v, rest, hu, rfl⟩ | hdue | hreset := step_report h
  · exact absurd hk hne
  · obtain rfl : r = .cmd := by
      by_contra hout
      exact hne (s.advance.writeReg_errcode hout v)
    exact .inl ⟨hr, hb, v, rest, hu⟩
  · exact .inr (.inl hdue)
  · exact .inr (.inr hreset)

end Sys2Proof.Machine
end

section
/-! A silent machine and the end of a run (spec 70_reset_and_hazards.md R263, R268, 20_memory.md R79): an idle machine moves at
no turn but the host's and those of `rst`, and a command in flight commits when its turn comes or when the run is over. -/

namespace Sys2Proof.Machine

/-! ### No command in flight -/

/-- An idle machine whose run is over stays as it is (R263). -/
theorem step_idle_silent {s : State} (hb : s.busy = false) (ht : s.turns = []) : step s = .next s := by
  simp [step, runTurn, ht, hb]

theorem sequencerTurn_idle {s : State} (hb : s.busy = false) : sequencerTurn s = .next s := by
  simp [sequencerTurn, hb]

/-- At the sequencer's turn an idle machine only takes the turn (R263). -/
theorem step_idle_sequencer {s : State} {rest : List Turn} (hb : s.busy = false) (ht : s.turns = .sequencer :: rest) :
    step s = .next s.advance := by
  have hidle : sequencerTurn s.advance = .next s.advance := sequencerTurn_idle (s := s.advance) hb
  simpa [step, runTurn, ht] using hidle

/-- Settles O4: the run is over, or the turn taken is a commit point with nothing to commit. -/
theorem nothingChangesOnItsOwn : Obligations.NothingChangesOnItsOwn := by
  refine fun s hb => ⟨fun ht => step_idle_silent hb ht, fun rest ht => ?_⟩
  rw [step_idle_sequencer hb ht, State.advance_of_cons ht]

/-! ### A command in flight -/

/-- A host transaction leaves a command in flight, and the run and `rst` as they are (R76). -/
theorem State.transact_busy {s : State} (hb : s.busy = true) (u : Transaction) :
    (s.transact u).busy = true ∧ (s.transact u).rst = s.rst ∧ (s.transact u).turns = s.turns := by
  cases u with
  | rd index => rw [State.transact, State.rd_busy hb]; exact ⟨hb, rfl, rfl⟩
  | wr index v => rw [State.transact, State.wr_busy hb]; exact ⟨hb, rfl, rfl⟩

/-- A host turn takes its place in the run and leaves the command in flight (R79). -/
theorem step_host_busy {s : State} {u : Transaction} {rest : List Turn} (hr : s.rst = false) (hb : s.busy = true)
    (ht : s.turns = .host u :: rest) : ∃ t, step s = .next t ∧ t.rst = false ∧ t.busy = true ∧ t.turns = rest := by
  obtain ⟨hbusy, hrst, hturns⟩ := State.transact_busy (s := s.advance) hb u
  exact ⟨_, step_of_host hr ht, hrst.trans hr, hbusy, hturns.trans (by simp [ht])⟩

/-- A commit that is due is made by the next step. -/
theorem step_commits {s : State} (h : CommitDue s) : ∃ t, step s = .next t ∧ t.busy = false ∧ t.done = true := by
  obtain ⟨t, hc⟩ := commitStep_completes s.advance
  exact ⟨t, (step_of_commitDue h).trans hc, commitStep_flags hc⟩

/-- Settles O17, by induction on the run: each host turn shortens it, and its end or a commit point brings the commit. -/
theorem acceptedCommandCommits : Obligations.AcceptedCommandCommits := by
  intro s
  induction hts : s.turns generalizing s with
  | nil =>
    intro hr hb _
    obtain ⟨t, ht, hend⟩ := step_commits ⟨hr, hb, .inl hts⟩
    exact ⟨1, le_rfl, t, run_succ_of_step ht 0, hend⟩
  | cons u rest ih =>
    intro hr hb hord
    cases u with
    | host u =>
      obtain ⟨s', hs', hr', hb', hts'⟩ := step_host_busy hr hb hts
      obtain ⟨k, hk, t, hrun, hend⟩ := ih s' hts' hr' hb' (List.forall_mem_of_forall_mem_cons hord)
      exact ⟨k + 1, Nat.succ_le_succ hk, t, (run_succ_of_step hs' k).trans hrun, hend⟩
    | sequencer =>
      obtain ⟨t, ht, hend⟩ := step_commits ⟨hr, hb, .inr ⟨rest, hts⟩⟩
      exact ⟨1, Nat.le_add_left 1 _, t, run_succ_of_step ht 0, hend⟩
    | assertReset | releaseReset => exact absurd (hord _ List.mem_cons_self) Bool.false_ne_true

end Sys2Proof.Machine
end

section
/-! A reset from assertion to release (spec 70_reset_and_hazards.md R250, 10_state.md R68; log entry 8). -/

namespace Sys2Proof.Machine

/-- The machine while `rst` is asserted, with `ts` left of its run and `n` turns taken: the reset state, `rst` high. -/
def State.inReset (p : Params) (ts : List Turn) (n : Nat) : State :=
  { State.resetWith p with rst := true, turns := ts, draw := n }

/-- The assertion of `rst` gives up whatever the state held but its parameters (R250). -/
theorem step_assertReset {s : State} {rest : List Turn} (ht : s.turns = .assertReset :: rest) :
    step s = .next (State.inReset s.par rest (s.draw + 1)) := by
  simp only [step, runTurn, ht, State.advance_of_cons ht]
  rfl

/-- While `rst` is asserted a turn of the host or of the sequencer is taken without effect. -/
theorem step_inReset_ordinary {u : Turn} (hu : isOrdinary u = true) (p : Params) (ts : List Turn) (n : Nat) :
    step (State.inReset p (u :: ts) n) = .next (State.inReset p ts (n + 1)) := by
  cases u with
  | host _ | sequencer => rfl
  | assertReset | releaseReset => exact absurd hu Bool.false_ne_true

/-- The release leaves the reset state (R68). -/
theorem step_inReset_release (p : Params) (ts : List Turn) (n : Nat) :
    step (State.inReset p (.releaseReset :: ts) n) = .next { State.resetWith p with turns := ts, draw := n + 1 } := rfl

/-- However long `rst` is held, its release ends in the reset state. -/
theorem run_inReset {held : List Turn} (hord : ∀ u ∈ held, isOrdinary u = true) (p : Params) (rest : List Turn) (n : Nat) :
    Host.Core.run core (held.length + 1) (State.inReset p (held ++ .releaseReset :: rest) n) =
      .next { State.resetWith p with turns := rest, draw := n + held.length + 1 } := by
  induction held generalizing n with
  | nil => exact run_succ_of_step (step_inReset_release p rest n) 0
  | cons u held ih =>
    obtain ⟨hu, hheld⟩ := List.forall_mem_cons.1 hord
    rw [List.length_cons, List.cons_append, run_succ_of_step (step_inReset_ordinary hu p _ n), ih hheld,
      Nat.add_right_comm n 1, Nat.add_assoc n]

/-- Settles O27: the assertion enters the held reset, and its release ends it. -/
theorem resetAbandonsEverything : Obligations.ResetAbandonsEverything := by
  intro s held rest hord ht
  rw [run_succ_of_step (step_assertReset ht), run_inReset hord, Nat.add_right_comm s.draw 1]

end Sys2Proof.Machine
end

section
/-! Free values and the commands (spec 93_implementation_defined.md U1, 70_reset_and_hazards.md R262; log entry 5): a command
reads no memory element beyond those that R262 has the host write, so that its result is the same under every draw. -/

namespace Sys2Proof.Machine

/-- The state with its free values drawn as in step `d`. -/
def State.withDraw (s : State) (d : Nat) : State := { s with draw := d }

theorem Memory.writtenTo_mono {w : Nat} {m : Memory w} {k n : Nat} (h : m.writtenTo n) (hk : k ≤ n) : m.writtenTo k :=
  fun j hj => h j (hj.trans_le hk)

section
variable {s : State} (d : Nat)

/-! ### What the commands read is not the draw -/

@[simp] theorem State.withDraw_inLen : (s.withDraw d).inLen = s.inLen := rfl
@[simp] theorem State.withDraw_mpBase : (s.withDraw d).mpBase = s.mpBase := rfl
@[simp] theorem State.withDraw_mpExp : (s.withDraw d).mpExp = s.mpExp := rfl
@[simp] theorem State.withDraw_mpMod : (s.withDraw d).mpMod = s.mpMod := rfl
@[simp] theorem State.withDraw_prN : (s.withDraw d).prN = s.prN := rfl
@[simp] theorem encChecks_withDraw : encChecks (s.withDraw d) = encChecks s := rfl

/-! ### The memory elements they read, where they are written -/

theorem State.ibufBytes_withDraw {i k n : Nat} (h : s.ibuf.writtenTo n) (hk : i + k ≤ n) :
    (s.withDraw d).ibufBytes i k = s.ibufBytes i k :=
  Memory.readRange_of_written h .ibuf d s.draw i k hk

theorem State.saltBytes_withDraw (h : s.salt.writtenTo s.saltLen.toNat) : (s.withDraw d).saltBytes = s.saltBytes :=
  Memory.readRange_of_written h .salt d s.draw 0 _ (Nat.zero_add _).le

theorem State.passBytes_withDraw (h : s.pass.writtenTo s.passLen.toNat) : (s.withDraw d).passBytes = s.passBytes :=
  Memory.readRange_of_written h .pass d s.draw 0 _ (Nat.zero_add _).le

/-- The transform reads the schedule below `VEC_SIZE` only, so not at all beyond what is written (R160). -/
theorem State.process_withDraw (hpos : s.vecSize ≠ 0#32) (h : s.iv.writtenTo s.vecSize.toNat) (crc : Word)
    (block : List Byte) : (s.withDraw d).process crc block = s.process crc block :=
  have hread (k : Nat) (hk : k < s.vecSize.toNat) : (s.withDraw d).ivWord k = s.ivWord k :=
    Memory.read_of_written (h k hk) .iv d s.draw
  State.process_congr (u := s.withDraw d) hpos rfl rfl rfl hread rfl crc block

/-- The selected key entry, where there is key material within the capacity (R165). -/
theorem State.keyEntry_withDraw (h : s.keyWritten) (hne : s.keyLen ≠ 0#32) (hcap : s.keyLen.toNat ≤ s.par.keyMax) :
    (s.withDraw d).keyModulus = s.keyModulus ∧ (s.withDraw d).keyExponent = s.keyExponent := by
  obtain ⟨hmod, hexp⟩ := h hne hcap
  exact ⟨Memory.read_of_written hmod .keyn d s.draw, Memory.read_of_written hexp .keyx d s.draw⟩

theorem State.encShift_withDraw (h : s.keyWritten) (hcap : s.keyLen ≠ 0#32 → s.keyLen.toNat ≤ s.par.keyMax) (crc : Word)
    (t : List Byte) : (s.withDraw d).encShift crc t = s.encShift crc t := by
  refine ite_congr rfl (fun _ => rfl) fun hne => ?_
  obtain ⟨hmod, hexp⟩ := State.keyEntry_withDraw d h hne (hcap hne)
  simp only [State.asymEnc, hmod, hexp]
  rfl

theorem State.decShift_withDraw (h : s.keyWritten) (field : Word) (p : List Byte) :
    (s.withDraw d).decShift field p = s.decShift field p := by
  refine ite_congr rfl (fun _ => rfl) fun _ => ite_congr rfl (fun _ => rfl) fun hne =>
    ite_congr rfl (fun _ => rfl) fun hcap => ?_
  obtain ⟨hmod, hexp⟩ := State.keyEntry_withDraw d h hne (Nat.le_of_not_lt hcap)
  simp only [State.asymDec, hmod, hexp]

/-! ### The checks that read a memory -/

/-- The password is read only where both lengths are within bounds (R141). -/
theorem ksChecks_withDraw (h : s.passLen.toNat ≤ s.par.passMax → s.pass.writtenTo s.passLen.toNat) :
    ksChecks (s.withDraw d) = ksChecks s := by
  refine ite_congr rfl (fun _ => rfl) fun _ => ite_congr rfl (fun _ => rfl) fun hpass => ?_
  have hfit : s.passLen.toNat ≤ s.par.passMax := Nat.le_of_not_lt fun hlong => hpass (.inr hlong)
  rw [State.passBytes_withDraw d (h hfit)]
  rfl

/-- The header is read only where the input holds a whole one (R184). -/
theorem checkHeader_withDraw (h : Config.hdrLen ≤ s.inLen.toNat → s.ibuf.writtenTo Config.hdrLen) :
    checkHeader (s.withDraw d) = checkHeader s := by
  refine ite_congr rfl (fun _ => rfl) fun hlen => ?_
  have hbytes := State.ibufBytes_withDraw d (i := 0) (h (Nat.le_of_not_lt hlen)) (Nat.zero_add _).le
  rw [State.inputHeader, hbytes]
  rfl

theorem decChecks_withDraw (h : s.inLen.toNat ≤ s.par.dbuf → s.ibuf.writtenTo s.inLen.toNat) :
    decChecks (s.withDraw d) = decChecks s := by
  refine ite_congr rfl (fun _ => rfl) fun _ => ite_congr rfl (fun _ => rfl) fun hfit => ?_
  rw [checkHeader_withDraw d fun hlen => Memory.writtenTo_mono (h (Nat.le_of_not_lt hfit)) hlen]
  rfl

/-! ### The evaluations carry the draw along -/

theorem evalCrc_withDraw (h : s.inLen.toNat ≤ s.par.dbuf → s.ibuf.writtenTo s.inLen.toNat) (start : Word) :
    evalCrc start (s.withDraw d) = (evalCrc start s).map (·.withDraw d) := by
  unfold evalCrc
  rw [apply_ite (Except.map _)]
  refine ite_congr rfl (fun _ => rfl) fun hfit => ?_
  simp only [State.withDraw_inLen, State.ibufBytes_withDraw d (h (Nat.le_of_not_lt hfit)) (Nat.zero_add _).le]
  rfl

theorem evalModpow_withDraw : evalModpow (s.withDraw d) = (evalModpow s).map (·.withDraw d) := by
  simp only [evalModpow, State.withDraw_mpBase, State.withDraw_mpExp, State.withDraw_mpMod]
  cases modpowF s.mpBase s.mpExp s.mpMod <;> rfl

theorem evalIsprime_withDraw : evalIsprime (s.withDraw d) = (evalIsprime s).map (·.withDraw d) := by
  simp only [evalIsprime, State.withDraw_prN]
  cases isPrimeF s.prN.toNat <;> rfl

theorem evalKsDerive_withDraw (hsalt : s.saltLen.toNat ≤ s.par.saltMax → s.salt.writtenTo s.saltLen.toNat)
    (hpass : s.passLen.toNat ≤ s.par.passMax → s.pass.writtenTo s.passLen.toNat) :
    evalKsDerive (s.withDraw d) = (evalKsDerive s).map (·.withDraw d) := by
  simp only [evalKsDerive, ksChecks_withDraw d hpass]
  cases hc : ksChecks s with
  | error e => rfl
  | ok vs =>
    obtain ⟨⟨-, hsaltMax⟩, ⟨-, hpassMax⟩, -⟩ := ksChecks_ok_iff.1 hc
    simp only [State.saltBytes_withDraw d (hsalt hsaltMax), State.passBytes_withDraw d (hpass hpassMax)]
    rfl

theorem evalXform_withDraw (hin : s.inLen.toNat ≤ s.par.bufferSize → s.ibuf.writtenTo s.inLen.toNat)
    (hiv : s.iv.writtenTo s.vecSize.toNat) : evalXform (s.withDraw d) = (evalXform s).map (·.withDraw d) := by
  unfold evalXform
  rw [apply_ite (Except.map _), apply_ite (Except.map _)]
  refine ite_congr rfl (fun _ => rfl) fun hpos => ite_congr rfl (fun _ => rfl) fun hfit => ?_
  rw [State.process_withDraw d hpos hiv, State.withDraw_inLen,
    State.ibufBytes_withDraw d (hin (Nat.le_of_not_lt hfit)) (Nat.zero_add _).le]
  rfl

theorem evalHdrPack_withDraw : evalHdrPack (s.withDraw d) = (evalHdrPack s).map (·.withDraw d) := by
  unfold evalHdrPack
  rw [apply_ite (Except.map _)]
  rfl

theorem evalHdrUnpack_withDraw (h : Config.hdrLen ≤ s.inLen.toNat → s.ibuf.writtenTo Config.hdrLen) :
    evalHdrUnpack (s.withDraw d) = (evalHdrUnpack s).map (·.withDraw d) := by
  simp only [evalHdrUnpack, checkHeader_withDraw d h]
  cases checkHeader s <;> rfl

theorem evalEncChunk_withDraw (hin : s.inLen.toNat ≤ s.par.bufferSize → s.ibuf.writtenTo s.inLen.toNat)
    (hiv : s.iv.writtenTo s.vecSize.toNat) (hkey : s.keyWritten) :
    evalEncChunk (s.withDraw d) = (evalEncChunk s).map (·.withDraw d) := by
  simp only [evalEncChunk, encChecks_withDraw, State.withDraw_inLen]
  cases hc : encChecks s with
  | error e => rfl
  | ok _ =>
    obtain ⟨hpos, -, -, hfit, hcap⟩ := encChecks_ok_iff.1 hc
    simp only [State.ibufBytes_withDraw d (hin hfit) (Nat.zero_add _).le, State.process_withDraw d hpos hiv,
      State.encShift_withDraw d hkey hcap]
    cases s.encShift _ _ <;> rfl

/-- The payload that DEC_CHUNK reads lies within the input (R192). -/
theorem payload_within_input {h : Header} (hc : decChecks s = .ok h) : Config.hdrLen + h.osize.toNat ≤ s.inLen.toNat := by
  obtain ⟨-, -, hheader, -, -, hfit⟩ := decChecks_ok_iff.1 hc
  obtain ⟨hlen, -⟩ := checkHeader_ok_iff.1 hheader
  simp only [Config.hdrLen]
  omega

theorem evalDecChunk_withDraw (hin : s.inLen.toNat ≤ s.par.dbuf → s.ibuf.writtenTo s.inLen.toNat)
    (hiv : s.iv.writtenTo s.vecSize.toNat) (hkey : s.keyWritten) :
    evalDecChunk (s.withDraw d) = (evalDecChunk s).map (·.withDraw d) := by
  simp only [evalDecChunk, decChecks_withDraw d hin]
  cases hc : decChecks s with
  | error e => rfl
  | ok h =>
    obtain ⟨hpos, hlen, -⟩ := decChecks_ok_iff.1 hc
    simp only [State.ibufBytes_withDraw d (hin hlen) (payload_within_input hc), State.decShift_withDraw d hkey,
      State.process_withDraw d hpos hiv]
    cases s.decShift h.shift (s.ibufBytes Config.hdrLen h.osize.toNat) with
    | error e => rfl
    | ok q =>
      dsimp only
      rw [apply_ite (Except.map _)]
      rfl

/-- With its operands written a command evaluates to the same under every draw. -/
theorem evalOf_withDraw {i : Instr} (h : OperandsWritten i s) :
    evalOf i (s.withDraw d) = (evalOf i s).map (·.withDraw d) := by
  cases i with
  | nop => rfl
  | cleanup => rfl
  | crcRun => exact evalCrc_withDraw d h s.crcInit
  | crcCont => exact evalCrc_withDraw d h s.crcRaw
  | modpow => exact evalModpow_withDraw d
  | isprime => exact evalIsprime_withDraw d
  | ksDerive => obtain ⟨hsalt, hpass⟩ := h; exact evalKsDerive_withDraw d hsalt hpass
  | xform => obtain ⟨hin, hiv⟩ := h; exact evalXform_withDraw d hin hiv
  | hdrPack => exact evalHdrPack_withDraw d
  | hdrUnpack => exact evalHdrUnpack_withDraw d h
  | encChunk => obtain ⟨hin, hiv, hkey⟩ := h; exact evalEncChunk_withDraw d hin hiv hkey
  | decChunk => obtain ⟨hin, hiv, hkey⟩ := h; exact evalDecChunk_withDraw d hin hiv hkey

end

/-! ### Commits -/

/-- With its operands written a command does the same under every draw, and leaves the count of turns. -/
theorem exec_withDraw {i : Instr} {s t : State} (hw : OperandsWritten i s) (h : exec i s = .next t) (d : Nat) :
    exec i (s.withDraw d) = .next (t.withDraw d) := by
  obtain ⟨u, hu, rfl⟩ | ⟨e, he, rfl⟩ := exec_cases h
  · have hu' : evalOf i (s.withDraw d) = .ok (u.withDraw d) := by rw [evalOf_withDraw d hw, hu]; rfl
    exact exec_of_ok hu'
  · have he' : evalOf i (s.withDraw d) = .error e := by rw [evalOf_withDraw d hw, he]; rfl
    rw [exec_of_error he']
    cases dropsOutput i <;> rfl

/-- Settles O31: drawing every free value anew is an update of the count of turns alone. -/
theorem writtenOperandsDetermineTheResult : Obligations.WrittenOperandsDetermineTheResult :=
  fun _ _ _ d hw h => exec_withDraw hw h d

end Sys2Proof.Machine
end
